-- ==== Sys2Proof/Word.lean ====
section
/-! DEFINITION. The words of PCAP: the 8-bit counter values, the 16-bit samples and constants, and the 20-bit
event words (00_scope.md R6, R7, R8; 30_encoding.md R70). All of them are unsigned (R11). -/

namespace Sys2Proof

/-- An 8-bit value: the hardware counter and the Overflow Count (R6, R7). -/
abbrev Byte := BitVec 8

/-- A 16-bit value: the Pulse Sample, a tick count, a calibration constant, a duty value (R7, R8, R152). -/
abbrev Word := BitVec 16

/-- A 20-bit event word (R70). -/
abbrev EventWord := BitVec 20

end Sys2Proof
end

