-- ==== Sys2Proof/Syntax.lean ====
section
/-! DEFINITION. The event alphabet (30_encoding.md R71): one constructor per row of spec/opcode_table.json, with its
agent; and the abstract syntax of one assembler line (R76, R77), whose operands are still unchecked numbers. -/

namespace Sys2Proof

/-- The seven events of R71. The operand types carry the widths of R72: PIN has a one-bit level (true = high), SCALE
a 16-bit tick count. -/
inductive Instr where
  | init
  | tick
  | pin (level : Bool)
  | edgeSvc
  | ovfSvc
  | rds
  | scale (ticks : Word)
  deriving DecidableEq, Repr

/-- The three contexts that issue events (60_exceptions.md R211). A context is not a mode: no state is kept for it. -/
inductive Agent where
  | environment
  | interruptLayer
  | foreground
  deriving DecidableEq, Repr

/-- The agent column of R71. -/
def Instr.agent : Instr → Agent
  | .init    => .foreground
  | .tick    => .environment
  | .pin _   => .environment
  | .edgeSvc => .interruptLayer
  | .ovfSvc  => .interruptLayer
  | .rds     => .foreground
  | .scale _ => .foreground

/-- The mnemonic column of R71. -/
def Instr.mnemonic : Instr → String
  | .init    => "INIT"
  | .tick    => "TICK"
  | .pin _   => "PIN"
  | .edgeSvc => "EDGE_SVC"
  | .ovfSvc  => "OVF_SVC"
  | .rds     => "RDS"
  | .scale _ => "SCALE"

/-- What one assembler line may name: the seven events of R76 and the three pseudo-instructions of R77. Numbers stand
as they were written; `SrcEvent.wellFormed` says which are in range. -/
inductive SrcEvent where
  | init
  | tick
  | pin (level : Nat)
  | edgeSvc
  | ovfSvc
  | rds
  | scale (ticks : Nat)
  | tickTimes (n : Nat)
  | rise
  | fall
  deriving DecidableEq, Repr

end Sys2Proof
end

