-- ==== Sys2Proof/Decode.lean ====
section
/-! DEFINITION. The 20-bit event word (30_encoding.md R70 to R74): its two fields, the decoder (total, an illegal word
is named by the clause of R73 it breaks), the encoder, and the opcode table as rows of mask and match. -/

namespace Sys2Proof

/-- The two clauses of R73. -/
inductive IllegalClause where
  /-- (a): `op` is 0x0 or any of 0x8 to 0xF. -/
  | opcode
  /-- (b): reserved data bits are not zero. -/
  | data
  deriving DecidableEq, Repr

/-- What a 20-bit word is (R74). -/
inductive Decoded where
  | event (i : Instr)
  | illegal (c : IllegalClause)
  deriving DecidableEq, Repr

/-- `op`, bits [19:16] (R70). -/
def opField (w : EventWord) : BitVec 4 := w.extractLsb' 16 4

/-- `data`, bits [15:0] (R70). -/
def dataField (w : EventWord) : Word := w.extractLsb' 0 16

/-- The operand L of PIN, `word[0]` (R72). -/
def levelOperand (w : EventWord) : Bool := w.getLsbD 0

/-- The operand T of SCALE, `word[15:0]` (R72). -/
def ticksOperand (w : EventWord) : Word := dataField w

/-- An event without operand: "Its `data` field must be zero" (R72, R73 clause (b)). -/
def withoutOperand (w : EventWord) (i : Instr) : Decoded :=
  if dataField w = 0 then .event i else .illegal .data

/-- The decoder of R71 to R74. -/
def decode (w : EventWord) : Decoded :=
  match (opField w).toNat with
  | 1 => withoutOperand w .init
  | 2 => withoutOperand w .tick
  | 3 => if (dataField w).extractLsb' 1 15 = 0 then .event (.pin (levelOperand w)) else .illegal .data
  | 4 => withoutOperand w .edgeSvc
  | 5 => withoutOperand w .ovfSvc
  | 6 => withoutOperand w .rds
  | 7 => .event (.scale (ticksOperand w))
  | _ => .illegal .opcode

/-- The word with these two fields (R70). -/
def eventWord (op : BitVec 4) (data : Word) : EventWord := op ++ data

/-- The word of an event (R71, R72). -/
def encode : Instr → EventWord
  | .init    => eventWord 0x1 0x0000
  | .tick    => eventWord 0x2 0x0000
  | .pin l   => eventWord 0x3 (if l then 0x0001 else 0x0000)
  | .edgeSvc => eventWord 0x4 0x0000
  | .ovfSvc  => eventWord 0x5 0x0000
  | .rds     => eventWord 0x6 0x0000
  | .scale t => eventWord 0x7 t

/-- One row of spec/opcode_table.json: a word `w` is the row's when `w &&& mask = word`. -/
structure OpcodeRow where
  mnemonic : String
  word     : EventWord
  mask     : EventWord
  deriving DecidableEq, Repr

/-- The rows of spec/opcode_table.json (R71). -/
def opcodeTable : List OpcodeRow :=
  [ ⟨"INIT",     0x10000, 0xFFFFF⟩,
    ⟨"TICK",     0x20000, 0xFFFFF⟩,
    ⟨"PIN",      0x30000, 0xFFFFE⟩,
    ⟨"EDGE_SVC", 0x40000, 0xFFFFF⟩,
    ⟨"OVF_SVC",  0x50000, 0xFFFFF⟩,
    ⟨"RDS",      0x60000, 0xFFFFF⟩,
    ⟨"SCALE",    0x70000, 0xF0000⟩ ]

/-- The event word that the host's pair of a bit count and a number stands for: the low `nbits` bits of `w`, if they
fit the 20 bits of R70 (log 16). -/
def tableEventWord (nbits w : Nat) : Option EventWord :=
  if w % 2 ^ nbits < 2 ^ 20 then some (BitVec.ofNat 20 (w % 2 ^ nbits)) else none

/-- The event this decoder reads from a table word, none where it refuses. -/
def decodeTableWord (nbits w : Nat) : Option Instr :=
  match tableEventWord nbits w with
  | none   => none
  | some v =>
    match decode v with
    | .event i   => some i
    | .illegal _ => none

end Sys2Proof
end

