-- ==== Sys2Proof/Config.lean ====
section
/-! DEFINITION. What is fixed for the lifetime of the block: the three calibration constants (00_scope.md R8,
10_state.md R39), and the tick period, which the spec leaves open and no rule reads (R10, R238). -/

namespace Sys2Proof

/-- The configuration of R8: three unsigned 16-bit constants. Which values are legal is `Config.wellFormed`
(WellFormed.lean). -/
structure Config where
  ticksLow  : Word
  ticksHigh : Word
  dutyMax   : Word
  deriving DecidableEq, Repr

/-- TICK_PERIOD of R10, in seconds: OPEN, a free value with no body (log 15). No rule of the spec reads it, and no
step of the model does. -/
opaque Config.tickPeriod : Rat

/-- "relates a sample in ticks to a pulse width in seconds" (R238). -/
def Config.ticksToSeconds (ticks : Word) : Rat := ticks.toNat * Config.tickPeriod

end Sys2Proof
end

