-- ==== Sys2Proof/WellFormed.lean ====
section
/-! DEFINITION. Which terms are well formed: configurations (00_scope.md R8), instructions (30_encoding.md R72) and
assembler events (R76, R77). -/

namespace Sys2Proof

/-- "ticks_low < ticks_high" (R8). That each constant lies in [0, 65535] is its type. -/
def Config.wellFormed (c : Config) : Bool := decide (c.ticksLow.toNat < c.ticksHigh.toNat)

/-- An instruction's operands have exactly the widths of R72 by their types, so no term of `Instr` is ill formed. The
ranges that a written operand can miss are checked before it becomes one, by `SrcEvent.wellFormed`. -/
def Instr.wellFormed : Instr → Bool
  | .init    => true
  | .tick    => true
  | .pin _   => true
  | .edgeSvc => true
  | .ovfSvc  => true
  | .rds     => true
  | .scale _ => true

/-- "A number above 65535 or a level other than 0 or 1 is an assembly error" (R76); `TICK*n` has `1 <= n <= 2^20`
(R77). -/
def SrcEvent.wellFormed : SrcEvent → Bool
  | .init        => true
  | .tick        => true
  | .pin n       => decide (n ≤ 1)
  | .edgeSvc     => true
  | .ovfSvc      => true
  | .rds         => true
  | .scale n     => decide (n ≤ 65535)
  | .tickTimes n => decide (1 ≤ n ∧ n ≤ 2 ^ 20)
  | .rise        => true
  | .fall        => true

end Sys2Proof
end

