-- ==== Sys2Proof/Machine/State.lean ====
section
/-! DEFINITION. The state of PCAP as plain data: the fifteen elements of 10_state.md R22 to R35, the configuration the
spec takes as arguments (R8, R39), and the model's own two lists, the output history (20_memory.md R59) and the event
words still to be issued (60_exceptions.md R222); the reasons a step can stop; the reset state
(70_reset_and_hazards.md R230). -/

namespace Sys2Proof.Machine

open Sys2Proof

/-- The Edge-Sense Mode (R27). Its bit is 0 for RisingOnly, 1 for AnyEdge: `Mode.bit` (Machine/Flags.lean). -/
inductive Mode where
  | risingOnly
  | anyEdge
  deriving DecidableEq, Repr

/-- The port that tags an entry of the output history (R13, R59). -/
inductive Port where
  | rd
  | duty
  deriving DecidableEq, Repr

/-- One `(port, value)` entry of the output history (R59). -/
structure OutEntry where
  port  : Port
  value : Word
  deriving DecidableEq, Repr

/-- The two interrupt sources (60_exceptions.md R202, R203). -/
inductive Source where
  | edge
  | overflow
  deriving DecidableEq, Repr

/-- The two fault bits of R31 and the hazard flag of R32: set by their rules, cleared by no step. -/
inductive StickyBit where
  | ovfOverrun
  | initTwice
  | glitch
  deriving DecidableEq, Repr

/-- Why the machine stops without a next state. The fault bits F1 and F2 of R201 are not here: "a fault shows in the
state; it does not stop the run" (R212). -/
inductive Fault where
  /-- Raised by EDGE_SVC (source edge) and OVF_SVC (source overflow) when the request is not pending or not enabled:
  outcome N1 of R201, "the trace has no run at that point" (R75; 93_implementation_defined.md U14, stuck). Safe. -/
  | notEnabled (src : Source)
  /-- Raised by `step` when no event word is left: "a run ends only because the trace does" (R222). Not a fault of the
  block (log 2). Safe. -/
  | traceEnded
  deriving DecidableEq, Repr

/-- What the model gives no meaning (R14, R214). -/
inductive Refusal where
  /-- Raised by `exec` for an event that has no meaning yet; no arm raises it. Safe. -/
  | notModelled (mnemonic : String)
  /-- X1 of R201, raised by `step` on an illegal word; records "the word and the clause of rule R73". Safe. -/
  | illegalEvent (word : EventWord) (clause : IllegalClause)
  /-- X2 of R201, raised by `step`, and by SCALE alone, when `TICKS_LOW >= TICKS_HIGH` (R8); records "the three
  constants". Safe. -/
  | badConfig (config : Config)
  deriving DecidableEq, Repr

/-- The machine. Flags and one-bit elements are Bool, true = 1. -/
@[ext]
structure State where
  /-- HW_CNT (R22). -/
  hwCnt : Byte
  /-- CNT_RUN (R23). -/
  cntRun : Bool
  /-- OVF_PEND (R24). -/
  ovfPend : Bool
  /-- OVF_CNT (R25). -/
  ovfCnt : Byte
  /-- OVF_SAT (R26). -/
  ovfSat : Bool
  /-- MODE (R27). -/
  mode : Mode
  /-- EDGE_IE (R28). -/
  edgeIE : Bool
  /-- OVF_IE (R29). -/
  ovfIE : Bool
  /-- EDGE_PEND (R30). -/
  edgePend : Bool
  /-- LEVEL (R33), true = high. -/
  level : Bool
  /-- SAMPLE, the Pulse Sample (R34). -/
  sample : Word
  /-- INIT_DONE (R35), model-only. -/
  initDone : Bool
  /-- FAULT_OVF_OVERRUN (R31), model-only. -/
  faultOvfOverrun : Bool
  /-- FAULT_INIT_TWICE (R31), model-only. -/
  faultInitTwice : Bool
  /-- HAZ_GLITCH (R32), model-only. -/
  hazGlitch : Bool
  /-- TICKS_LOW, TICKS_HIGH, DUTY_MAX: arguments of every step (R39), written by none (log 3). -/
  config : Config
  /-- The output history (R59), oldest entry first: the model's own field, read by no step (log 7). -/
  out : List OutEntry
  /-- The event words the agents have still to issue, in the order the scheduler takes them (R204, R222): the model's
  own field (log 1). -/
  trace : List EventWord
  deriving DecidableEq, Repr

/-- What R230 leaves open about the state after reset: the draws and parameters of R10, and the configuration, which
"is fixed before reset and is not changed by it". -/
structure ResetParams where
  hwCnt0      : Byte
  ovfCnt0     : Byte
  ovfSat0     : Bool
  level0      : Bool
  sampleReset : Word
  config      : Config
  deriving DecidableEq, Repr

/-- The reset state of R230, for every value of what it leaves open. -/
def State.resetWith (p : ResetParams) : State where
  hwCnt           := p.hwCnt0
  cntRun          := false
  ovfPend         := false
  ovfCnt          := p.ovfCnt0
  ovfSat          := p.ovfSat0
  mode            := .risingOnly
  edgeIE          := false
  ovfIE           := false
  edgePend        := false
  level           := p.level0
  sample          := p.sampleReset
  initDone        := false
  faultOvfOverrun := false
  faultInitTwice  := false
  hazGlitch       := false
  config          := p.config
  out             := []
  trace           := []

/-- DESIGN CHOICE. The values the model names where R230 leaves them open: the draws HW_CNT0, OVF_CNT0, OVF_SAT0 are
0 (log 4), SAMPLE_RESET is 0 (log 5), LEVEL0 is low (log 6), the configuration is the example of R9 (log 3). No
statement rests on them: statements about reset are about `State.resetWith`. -/
def ResetParams.named : ResetParams where
  hwCnt0      := 0x00
  ovfCnt0     := 0x00
  ovfSat0     := false
  level0      := false
  sampleReset := 0x0000
  config      := ⟨2000, 4000, 255⟩

/-- The machine right after reset, at the values the model names. -/
def State.reset : State := State.resetWith ResetParams.named

end Sys2Proof.Machine
end

