-- ==== Sys2Proof/Machine/Flags.lean ====
section
/-! DEFINITION. The one-bit conditions the rules compute: capture active (10_state.md R36), the saturating overflow
increment with its flag (40_counter.md R103), wrap and overrun (R100, R101), transition, edge qualification and glitch
(41_capture.md R120 to R123), the requests and enabling conditions (30_encoding.md R75), and the control points'
bits (10_state.md R38). -/

namespace Sys2Proof.Machine

open Sys2Proof

/-- 0 = RisingOnly, 1 = AnyEdge (R27). -/
def Mode.bit : Mode → Bool
  | .risingOnly => false
  | .anyEdge    => true

/-- Capture active (R36). -/
def State.captureActive (s : State) : Bool := s.cntRun && s.mode.bit

/-- `ovf_next` of R103: the pair of the next Overflow Count and the next saturation flag. -/
def ovfNext (c : Byte) (sat : Bool) : Byte × Bool :=
  if c = 0xFF then (0xFF, true) else (c + 1, sat)

/-- The next TICK of a running counter wraps it: "wraps from 0xFF to 0x00" (R100). -/
def State.atWrap (s : State) : Bool := s.hwCnt == 0xFF

/-- A wrap in this state is an overrun (R101): an overflow is pending and the mode is AnyEdge. That the counter runs
is known where R100 asks. -/
def State.overruns (s : State) : Bool := s.ovfPend && s.mode.bit

/-- The line moves to a level it does not have: a transition (R17, R120). -/
def State.transition (s : State) (l : Bool) : Bool := l != s.level

/-- The detector qualifies a transition to level `l`: its enable is set (R122), and the mode is AnyEdge or the
transition is rising (R121). -/
def State.qualifies (s : State) (l : Bool) : Bool := s.edgeIE && (s.mode.bit || l)

/-- A source's request and enable are both set (R202, R203): the enabling conditions of EDGE_SVC and OVF_SVC (R75). -/
def State.requested (s : State) : Source → Bool
  | .edge     => s.edgePend && s.edgeIE
  | .overflow => s.ovfPend && s.ovfIE

/-- Which events are enabled in a state (R75, R204). -/
def State.enables (s : State) : Instr → Bool
  | .init    => true
  | .tick    => true
  | .pin _   => true
  | .edgeSvc => s.requested .edge
  | .ovfSvc  => s.requested .overflow
  | .rds     => true
  | .scale _ => true

/-- CP0, interrupt-enable: EDGE_IE in bit 0, OVF_IE in bit 1 (R38). Bits [7:2] do not exist. -/
def State.cp0 (s : State) : BitVec 2 := BitVec.ofBool s.ovfIE ++ BitVec.ofBool s.edgeIE

/-- CP1, edge-sense-mode (R38). -/
def State.cp1 (s : State) : BitVec 1 := BitVec.ofBool s.mode.bit

/-- CP2, counter-value (R38). -/
def State.cp2 (s : State) : BitVec 8 := s.hwCnt

/-- CP3, counter-running (R38). -/
def State.cp3 (s : State) : BitVec 1 := BitVec.ofBool s.cntRun

/-- CP4, overflow-pending (R38). -/
def State.cp4 (s : State) : BitVec 1 := BitVec.ofBool s.ovfPend

end Sys2Proof.Machine
end

