-- ==== Sys2Proof/Machine/Operands.lean ====
section
/-! DEFINITION. The values the rules compute from operands: the composite tick value (40_counter.md R102) and the
scaler's clamp and arithmetic (43_scaler.md R150 to R152). How an operand is taken from its word is in Decode.lean
(30_encoding.md R72). -/

namespace Sys2Proof.Machine

open Sys2Proof

/-- `composite` of R102: OVF_CNT in bits [15:8], HW_CNT in bits [7:0], 0xFFFF when saturated. -/
def composite (c h : Byte) (sat : Bool) : Word := if sat then 0xFFFF else c ++ h

/-- The clamp of R151: `min(max(t, lo), hi)`. -/
def clamp (c : Config) (t : Word) : Nat := min (max t.toNat c.ticksLow.toNat) c.ticksHigh.toNat

/-- The duty value of R150. Natural numbers are exact, as R152 asks of the product, and `/` truncates; the result is
delivered as 16 bits. It is the spec's value where `c.wellFormed` holds (R8), and only there is it used. -/
def scale (c : Config) (t : Word) : Word :=
  BitVec.ofNat 16
    ((clamp c t - c.ticksLow.toNat) * c.dutyMax.toNat / (c.ticksHigh.toNat - c.ticksLow.toNat))

end Sys2Proof.Machine
end

