-- ==== Sys2Proof/Machine/Ops.lean ====
section
/-! DEFINITION. The named operations over the state that the meanings share: Publish, Snapshot and out (00_scope.md
R13), raise (R14), `ovf_inc` (40_counter.md R103), and the one operation by which an interrupt service is entered and
left (60_exceptions.md R205, R208, R209). The block raises no synchronous exception (R200), so there is no other
entry. -/

namespace Sys2Proof.Machine

open Sys2Proof

/-- `Publish(v)`: all 16 bits of SAMPLE in one step (R13, R56). -/
def State.publish (s : State) (v : Word) : State := { s with sample := v }

/-- `Snapshot()`: all 16 bits of SAMPLE (R13, R57). -/
def State.snapshot (s : State) : Word := s.sample

/-- `out(port, v)`: append to the output history (R13, R59). -/
def State.emit (s : State) (p : Port) (v : Word) : State := { s with out := s.out ++ [⟨p, v⟩] }

/-- `raise Fault(F)` (R14), and the setting of HAZ_GLITCH (R123), under a condition: the sticky bit becomes 1 when the
condition holds, and keeps its value otherwise (R31, R32). -/
def State.raiseIf (s : State) (c : Bool) : StickyBit → State
  | .ovfOverrun => { s with faultOvfOverrun := s.faultOvfOverrun || c }
  | .initTwice  => { s with faultInitTwice := s.faultInitTwice || c }
  | .glitch     => { s with hazGlitch := s.hazGlitch || c }

/-- `ovf_inc` of R103. -/
def State.ovfInc (s : State) : State :=
  { s with ovfCnt := (ovfNext s.ovfCnt s.ovfSat).1, ovfSat := (ovfNext s.ovfCnt s.ovfSat).2 }

/-- Entry to a service: it "saves nothing" and "clears its own request" (R208). -/
def State.enterService (s : State) : Source → State
  | .edge     => { s with edgePend := false }
  | .overflow => { s with ovfPend := false }

/-- Return from a service: "nothing is restored, and no enable is changed" (R209). -/
def State.leaveService (s : State) : State := s

/-- One interrupt service as one atomic step (R205): taken only when its request is pending and enabled (R75, R202,
R203); otherwise the event has no step. The handler reads nothing that entry clears, so what it reads is the state at
the start of the step (R12). -/
def service (src : Source) (handler : State → State) (s : State) : Host.Outcome State Fault Refusal :=
  if s.requested src then .next (handler (s.enterService src)).leaveService else .fault (.notEnabled src)

end Sys2Proof.Machine
end

