-- ==== Sys2Proof/Machine/Capture.lean ====
section
/-! DEFINITION. The Edge Capture Handler's events PIN and EDGE_SVC (41_capture.md R120 to R126). -/

namespace Sys2Proof.Machine

open Sys2Proof

/-- A transition of the line to level `l` (R120): the glitch flag (R123), the level, the request (R121, R122). -/
def State.lineChange (s : State) (l : Bool) : State :=
  ({ s with level := l, edgePend := s.edgePend || s.qualifies l } : State).raiseIf s.edgePend .glitch

/-- PIN L (R120). "L = LEVEL is no transition and does nothing." -/
def execPin (l : Bool) (s : State) : Host.Outcome State Fault Refusal :=
  .next (if s.transition l then s.lineChange l else s)

/-- RISING_BRANCH (R125). -/
def State.risingBranch (s : State) : State :=
  { s with mode := .anyEdge, hwCnt := 0x00, ovfCnt := 0x00, ovfSat := false, ovfPend := false, cntRun := true }

/-- FALLING_BRANCH (R126). A pending overflow is counted first, and HW_CNT and OVF_PEND are read at the same instant. -/
def State.fallingBranch (s : State) : State :=
  let counted := if s.ovfPend then ovfNext s.ovfCnt s.ovfSat else (s.ovfCnt, s.ovfSat)
  ({ s with ovfCnt := counted.1, ovfSat := counted.2, ovfPend := false, cntRun := false } : State).publish
    (composite counted.1 s.hwCnt counted.2)

/-- "It reads the line level LEVEL at its own step" (R124). -/
def State.edgeHandler (s : State) : State := if s.level then s.risingBranch else s.fallingBranch

/-- EDGE_SVC (R124). -/
def execEdgeSvc (s : State) : Host.Outcome State Fault Refusal := service .edge State.edgeHandler s

end Sys2Proof.Machine
end

