-- ==== Sys2Proof/Machine/Counter.lean ====
section
/-! DEFINITION. The Virtual Wide Counter's events TICK and OVF_SVC (40_counter.md R100, R101, R104 to R106). -/

namespace Sys2Proof.Machine

open Sys2Proof

/-- One advance of a running counter (R100). At the wrap the overflow becomes pending; a wrap over a pending overflow
in AnyEdge mode is the overrun of R101. -/
def State.advance (s : State) : State :=
  if s.atWrap then ({ s with hwCnt := 0x00, ovfPend := true } : State).raiseIf s.overruns .ovfOverrun
  else { s with hwCnt := s.hwCnt + 1 }

/-- TICK (R100). "A stopped counter holds" (R105). -/
def execTick (s : State) : Host.Outcome State Fault Refusal := .next (if s.cntRun then s.advance else s)

/-- OVF_SVC (R104): count the pending overflow, and nothing else. -/
def execOvfSvc (s : State) : Host.Outcome State Fault Refusal := service .overflow State.ovfInc s

end Sys2Proof.Machine
end

