-- ==== Sys2Proof/Machine/Init.lean ====
section
/-! DEFINITION. Initialization: INIT (42_init.md R140 to R142). -/

namespace Sys2Proof.Machine

open Sys2Proof

/-- The four actions of the first INIT, in one step (R140, R142), and the model's record of it (R35). -/
def State.firstInit (s : State) : State :=
  { s with edgeIE := true, mode := .risingOnly, ovfIE := true, cntRun := true, initDone := true }

/-- INIT (R140). "a second INIT has no effect on the block's state. The model sets the sticky fault bit" (R141). -/
def execInit (s : State) : Host.Outcome State Fault Refusal :=
  .next (if s.initDone then s.raiseIf true .initTwice else s.firstInit)

end Sys2Proof.Machine
end

