-- ==== Sys2Proof/Machine/Latch.lean ====
section
/-! DEFINITION. The atomic sample latch: RDS (44_latch.md R170). -/

namespace Sys2Proof.Machine

open Sys2Proof

/-- RDS (R170): the whole sample goes to the output history; reading it changes nothing (R58). -/
def execRds (s : State) : Host.Outcome State Fault Refusal := .next (s.emit .rd s.snapshot)

end Sys2Proof.Machine
end

