-- ==== Sys2Proof/Machine/Scaler.lean ====
section
/-! DEFINITION. The Signal Scaler: SCALE (43_scaler.md R150). -/

namespace Sys2Proof.Machine

open Sys2Proof

/-- SCALE T (R150): no state is written but the output history. It is the one event that reads the configuration, and
a configuration that R8 refuses has no scaled value. -/
def execScale (t : Word) (s : State) : Host.Outcome State Fault Refusal :=
  if s.config.wellFormed then .next (s.emit .duty (scale s.config t)) else .refused (.badConfig s.config)

end Sys2Proof.Machine
end

