-- ==== Sys2Proof/Machine/Dispatch.lean ====
section
/-! DEFINITION. One arm per event of R71. -/

namespace Sys2Proof.Machine

open Sys2Proof

def exec (i : Instr) (s : State) : Host.Outcome State Fault Refusal :=
  match i with
  | .init => Sys2Proof.Machine.execInit s
  | .tick => Sys2Proof.Machine.execTick s
  | .pin level => Sys2Proof.Machine.execPin level s
  | .edgeSvc => Sys2Proof.Machine.execEdgeSvc s
  | .ovfSvc => Sys2Proof.Machine.execOvfSvc s
  | .rds => Sys2Proof.Machine.execRds s
  | .scale ticks => Sys2Proof.Machine.execScale ticks s

end Sys2Proof.Machine
end

