-- ==== Sys2Proof/Machine/Fetch.lean ====
section
/-! DEFINITION. Where the next event comes from. The block fetches no instructions (10_state.md R21, 20_memory.md
R64): the next event is the first word of the trace (60_exceptions.md R204, R222). -/

namespace Sys2Proof.Machine

open Sys2Proof

/-- The run's next event word and the state in which it is taken, none when the trace is over (R222). -/
def State.nextWord (s : State) : Option (EventWord × State) :=
  match s.trace with
  | []        => none
  | w :: rest => some (w, { s with trace := rest })

/-- One event word: a legal word is its event (R74), an illegal one is refused whatever the state (R73, R75). -/
def runWord (w : EventWord) (s : State) : Host.Outcome State Fault Refusal :=
  match decode w with
  | .event i   => exec i s
  | .illegal c => .refused (.illegalEvent w c)

/-- Put a word before all the others of the trace: it is the next one the step takes. -/
def State.placeWord (s : State) (w : EventWord) : State := { s with trace := w :: s.trace }

/-- The event word to place for the host's table word; a number that does not fit 20 bits stands as 0x00000, which is
illegal (log 16). -/
def fetchWordOf (nbits w : Nat) : EventWord := (tableEventWord nbits w).getD 0x00000

end Sys2Proof.Machine
end

