-- ==== Sys2Proof/Machine/Step.lean ====
section
/-! DEFINITION. One step of a run (60_exceptions.md R204, R222): the configuration is checked before anything runs
(00_scope.md R8), then the next word of the trace is taken. -/

namespace Sys2Proof.Machine

open Sys2Proof

/-- One step. "a configuration with lo >= hi is refused before any step" (R150, R214). -/
def step (s : State) : Host.Outcome State Fault Refusal :=
  if s.config.wellFormed then
    match s.nextWord with
    | none         => .fault .traceEnded
    | some (w, s') => runWord w s'
  else .refused (.badConfig s.config)

/-- The state with the host's table word as the very next event word (log 1). -/
def State.withFetchWord (s : State) (nbits w : Nat) : State := s.placeWord (fetchWordOf nbits w)

end Sys2Proof.Machine
end

