-- ==== Sys2Proof/Machine/Assembler.lean ====
section
/-! DEFINITION. The assembler of 30_encoding.md R76 and R77: one line, a list of characters, to its event words. The
block has no control flow, so a program is its lines' words joined. -/

namespace Sys2Proof.Machine

open Sys2Proof

/-- Why a line produces no word (R76). -/
inductive AsmError where
  /-- The line is not of the grammar of R76 and R77. -/
  | syntaxError
  /-- "A number above 65535 or a level other than 0 or 1" (R76), or a count outside R77's range. -/
  | outOfRange
  deriving DecidableEq, Repr

/-- What one line assembles to. -/
inductive Assembled where
  | words (ws : List EventWord)
  | error (e : AsmError)
  deriving DecidableEq, Repr

/-- The events of an assembler event: itself, or the expansion of R77. -/
def expand : SrcEvent → List Instr
  | .init        => [.init]
  | .tick        => [.tick]
  | .pin n       => [.pin (n == 1)]
  | .edgeSvc     => [.edgeSvc]
  | .ovfSvc      => [.ovfSvc]
  | .rds         => [.rds]
  | .scale n     => [.scale (BitVec.ofNat 16 n)]
  | .tickTimes n => List.replicate n .tick
  | .rise        => [.pin true, .edgeSvc]
  | .fall        => [.pin false, .edgeSvc]

/-- "A source line assembles to the word of rule R71 with the operand placed by rule R72" (R76). -/
def assembleEvent (e : SrcEvent) : Assembled :=
  if e.wellFormed then .words ((expand e).map encode) else .error .outOfRange

/-- The rest of a line after a prefix, none where the line does not begin with it. -/
def afterPrefix : List Char → List Char → Option (List Char)
  | [],      cs      => some cs
  | _ :: _,  []      => none
  | p :: ps, c :: cs => if p = c then afterPrefix ps cs else none

/-- A decimal digit's value. -/
def decimalDigit (c : Char) : Option Nat :=
  if '0'.toNat ≤ c.toNat ∧ c.toNat ≤ '9'.toNat then some (c.toNat - '0'.toNat) else none

/-- A hexadecimal digit's value; both cases of the letters are taken (log 14). -/
def hexDigit (c : Char) : Option Nat :=
  if 'a'.toNat ≤ c.toNat ∧ c.toNat ≤ 'f'.toNat then some (c.toNat - 'a'.toNat + 10)
  else if 'A'.toNat ≤ c.toNat ∧ c.toNat ≤ 'F'.toNat then some (c.toNat - 'A'.toNat + 10)
  else decimalDigit c

/-- Digits of one base, read from the left onto `acc`. -/
def digits (base : Nat) (digit : Char → Option Nat) : Nat → List Char → Option Nat
  | acc, []      => some acc
  | acc, c :: cs =>
    match digit c with
    | none   => none
    | some d => digits base digit (acc * base + d) cs

/-- One or more decimal digits (R76, R77). DESIGN CHOICE: any count of digits is taken, so leading zeros are, and the
value alone is held against the range (log 14). -/
def decimalNumber : List Char → Option Nat
  | [] => none
  | cs => digits 10 decimalDigit 0 cs

/-- `number` of R76: decimal, or "0x" and 1 to 4 hexadecimal digits. -/
def number (cs : List Char) : Option Nat :=
  match afterPrefix ['0', 'x'] cs with
  | none      => decimalNumber cs
  | some []   => none
  | some hex  => if hex.length ≤ 4 then digits 16 hexDigit 0 hex else none

/-- `level` of R76, one character. Another digit is a level out of range, which `SrcEvent.wellFormed` refuses. -/
def levelNumber : List Char → Option Nat
  | [c] => decimalDigit c
  | _   => none

/-- `sp` of R76: one space or more (log 14). -/
def afterSpaces : List Char → Option (List Char)
  | ' ' :: cs => some (cs.dropWhile (· == ' '))
  | _         => none

/-- The text of an event without the spaces around it (log 14). -/
def trimSpaces (cs : List Char) : List Char :=
  ((cs.dropWhile (· == ' ')).reverse.dropWhile (· == ' ')).reverse

/-- `event` of R76 and the pseudo-instructions of R77. Mnemonics are upper case. -/
def parseEvent (cs : List Char) : Option SrcEvent :=
  if cs = ['I', 'N', 'I', 'T'] then some .init
  else if cs = ['T', 'I', 'C', 'K'] then some .tick
  else if cs = ['E', 'D', 'G', 'E', '_', 'S', 'V', 'C'] then some .edgeSvc
  else if cs = ['O', 'V', 'F', '_', 'S', 'V', 'C'] then some .ovfSvc
  else if cs = ['R', 'D', 'S'] then some .rds
  else if cs = ['R', 'I', 'S', 'E'] then some .rise
  else if cs = ['F', 'A', 'L', 'L'] then some .fall
  else
    match afterPrefix ['P', 'I', 'N'] cs with
    | some rest => ((afterSpaces rest).bind levelNumber).map .pin
    | none =>
      match afterPrefix ['T', 'I', 'C', 'K', '*'] cs with
      | some rest => (decimalNumber rest).map .tickTimes
      | none =>
        match afterPrefix ['S', 'C', 'A', 'L', 'E'] cs with
        | some rest => (((afterSpaces rest).bind (afterPrefix ['#'])).bind number).map .scale
        | none => none

/-- `line` of R76: an optional event, then an optional comment from the first ";" on. -/
def assembleLine (line : List Char) : Assembled :=
  match trimSpaces (line.takeWhile (· != ';')) with
  | [] => .words []
  | cs =>
    match parseEvent cs with
    | none   => .error .syntaxError
    | some e => assembleEvent e

/-- A program's lines in order; the first error stands. -/
def assemble : List (List Char) → Assembled
  | [] => .words []
  | l :: ls =>
    match assembleLine l, assemble ls with
    | .words ws, .words rest => .words (ws ++ rest)
    | .words _,  .error e    => .error e
    | .error e,  _           => .error e

end Sys2Proof.Machine
end

