-- ==== Sys2Proof/Machine/Contexts.lean ====
section
/-! DEFINITION. The state elements under their own names, each read as a number, and the access rights of 10_state.md
R37, which are the block's only protection (20_memory.md R54, 60_exceptions.md R211). -/

namespace Sys2Proof.Machine

open Sys2Proof

/-- The fifteen state elements of R230. -/
inductive Element where
  | hwCnt
  | cntRun
  | ovfPend
  | ovfCnt
  | ovfSat
  | mode
  | edgeIE
  | ovfIE
  | edgePend
  | level
  | sample
  | initDone
  | faultOvfOverrun
  | faultInitTwice
  | hazGlitch
  deriving DecidableEq, Repr

/-- The width column of R230. -/
def Element.width : Element → Nat
  | .hwCnt  => 8
  | .ovfCnt => 8
  | .sample => 16
  | .cntRun | .ovfPend | .ovfSat | .mode | .edgeIE | .ovfIE | .edgePend | .level => 1
  | .initDone | .faultOvfOverrun | .faultInitTwice | .hazGlitch => 1

/-- `s.X` of R12, as an unsigned number (R11); MODE by its encoding (R27). -/
def State.read (s : State) : Element → Nat
  | .hwCnt           => s.hwCnt.toNat
  | .cntRun          => s.cntRun.toNat
  | .ovfPend         => s.ovfPend.toNat
  | .ovfCnt          => s.ovfCnt.toNat
  | .ovfSat          => s.ovfSat.toNat
  | .mode            => s.mode.bit.toNat
  | .edgeIE          => s.edgeIE.toNat
  | .ovfIE           => s.ovfIE.toNat
  | .edgePend        => s.edgePend.toNat
  | .level           => s.level.toNat
  | .sample          => s.sample.toNat
  | .initDone        => s.initDone.toNat
  | .faultOvfOverrun => s.faultOvfOverrun.toNat
  | .faultInitTwice  => s.faultInitTwice.toNat
  | .hazGlitch       => s.hazGlitch.toNat

/-- The W entries of R37, cell by cell: the events that may write an element. A cell that names no event gives the
right to every event of its context. -/
def mayWrite : Instr → Element → Bool
  | .init,    .cntRun | .init, .mode | .init, .edgeIE | .init, .ovfIE => true
  | .init,    .initDone | .init, .faultInitTwice => true
  | .init,    _ => false
  | .tick,    .hwCnt | .tick, .ovfPend | .tick, .faultOvfOverrun => true
  | .tick,    _ => false
  | .pin _,   .edgePend | .pin _, .level | .pin _, .hazGlitch => true
  | .pin _,   _ => false
  | .edgeSvc, .hwCnt | .edgeSvc, .cntRun | .edgeSvc, .ovfPend | .edgeSvc, .ovfCnt | .edgeSvc, .ovfSat => true
  | .edgeSvc, .mode | .edgeSvc, .edgePend | .edgeSvc, .sample => true
  | .edgeSvc, _ => false
  | .ovfSvc,  .ovfPend | .ovfSvc, .ovfCnt | .ovfSvc, .ovfSat => true
  | .ovfSvc,  _ => false
  | .rds,     _ => false
  | .scale _, _ => false

/-- The R entries of R37, cell by cell. MODE stands for TICK too: R100 reads it there, through the capture-active
predicate, though R37's cell names PIN alone (log 13). -/
def mayRead : Instr → Element → Bool
  | .init,    .initDone | .init, .faultInitTwice => true
  | .init,    _ => false
  | .tick,    .hwCnt | .tick, .cntRun | .tick, .ovfPend | .tick, .mode => true
  | .tick,    _ => false
  | .pin _,   .mode | .pin _, .edgeIE | .pin _, .edgePend | .pin _, .level => true
  | .pin _,   _ => false
  | .edgeSvc, .hwCnt | .edgeSvc, .ovfPend | .edgeSvc, .ovfCnt | .edgeSvc, .ovfSat | .edgeSvc, .mode => true
  | .edgeSvc, .edgeIE | .edgeSvc, .ovfIE | .edgeSvc, .edgePend | .edgeSvc, .level => true
  | .edgeSvc, _ => false
  | .ovfSvc,  .ovfPend | .ovfSvc, .ovfCnt | .ovfSvc, .ovfSat | .ovfSvc, .edgeIE | .ovfSvc, .ovfIE => true
  | .ovfSvc,  _ => false
  | .rds,     .sample => true
  | .rds,     _ => false
  | .scale _, _ => false

end Sys2Proof.Machine
end

