-- ==== Sys2Proof/Safety.lean ====
section
/-! DEFINITION. What a claim about a run is stated over: the run of a list of events (60_exceptions.md R204, R222),
what it publishes (44_latch.md R172), the tick count of 10_state.md R41, the premises of R212 and R213, and the
invariant that every step keeps. -/

namespace Sys2Proof.Machine

open Sys2Proof

/-- `n` steps of the machine along its trace, to the first stop: `Host.Core.run` of this machine. A stop stands for the
rest of the run, which is the refusal mark of R214 (log 10). -/
def runSteps : Nat → State → Host.Outcome State Fault Refusal
  | 0,     s => .next s
  | n + 1, s =>
    match step s with
    | .next t    => runSteps n t
    | .fault f   => .fault f
    | .refused r => .refused r

/-- A run: events taken one after another, each enabled when taken (R222). -/
def runEvents : List Instr → State → Host.Outcome State Fault Refusal
  | [],      s => .next s
  | e :: es, s =>
    match exec e s with
    | .next t    => runEvents es t
    | .fault f   => .fault f
    | .refused r => .refused r

/-- What one event publishes into SAMPLE: a falling-edge service publishes, nothing else does (R55, R126). -/
def publishedBy (e : Instr) (s : State) : List Word :=
  match exec e s with
  | .next t    => if e = .edgeSvc ∧ s.level = false then [t.sample] else []
  | .fault _   => []
  | .refused _ => []

/-- The values a run publishes, oldest first (R172). -/
def published : List Instr → State → List Word
  | [],      _ => []
  | e :: es, s =>
    match exec e s with
    | .next t    => publishedBy e s ++ published es t
    | .fault _   => []
    | .refused _ => []

/-- What one event appends to the output history: "`out(RD, v)` is appended by RDS and `out(DUTY, d)` by SCALE" (R59). -/
def outputOf : Instr → State → List OutEntry
  | .rds,     s => [⟨.rd, s.sample⟩]
  | .scale t, s => [⟨.duty, scale s.config t⟩]
  | .init,    _ => []
  | .tick,    _ => []
  | .pin _,   _ => []
  | .edgeSvc, _ => []
  | .ovfSvc,  _ => []

/-- `OVF_CNT * 256 + HW_CNT + 256 * OVF_PEND` (R41). -/
def State.tickCount (s : State) : Nat := s.ovfCnt.toNat * 256 + s.hwCnt.toNat + 256 * s.ovfPend.toNat

/-- "both fault bits 0" (R212). -/
abbrev State.faultFree (s : State) : Prop := s.faultOvfOverrun = false ∧ s.faultInitTwice = false

/-- HAZ_GLITCH = 0, the premise of the sample guarantees (R213). -/
abbrev State.glitchFree (s : State) : Prop := s.hazGlitch = false

/-- Before INIT the block is as reset left it: no mode change, no running counter, no request, no second INIT
(R140, R143, R230). -/
abbrev InertBeforeInit (s : State) : Prop :=
  s.initDone = false →
    s.mode = .risingOnly ∧ s.cntRun = false ∧ s.edgePend = false ∧ s.faultInitTwice = false ∧ s.hazGlitch = false

/-- INIT sets both enables, and no other event writes them (R28, R29, R62). -/
abbrev EnablesFollowInit (s : State) : Prop := s.edgeIE = s.initDone ∧ s.ovfIE = s.initDone

/-- A stopped counter has no overflow pending: the falling branch accounts for it as it stops (R105, R126). -/
abbrev StoppedHasNoOverflow (s : State) : Prop := s.cntRun = false → s.ovfPend = false

/-- Once a rising-edge service has run, a saturated count is a full one (R103, R125). -/
abbrev SaturatedIsFull (s : State) : Prop := s.mode = .anyEdge → s.ovfSat = true → s.ovfCnt = 0xFF

/-- An overrun is flagged only in active capture, so only after the first rising-edge service (R101). -/
abbrev OverrunOnlyAfterRising (s : State) : Prop := s.faultOvfOverrun = true → s.mode = .anyEdge

/-- With no glitch, in RisingOnly mode a request means the line is high (R130), and the counter of an initialized
block runs (R106). -/
abbrev RisingOnlyRequests (s : State) : Prop :=
  s.hazGlitch = false → s.mode = .risingOnly →
    (s.edgePend = true → s.level = true) ∧ (s.initDone = true → s.cntRun = true)

/-- With no glitch, in AnyEdge mode the counter runs exactly from a rising-edge service to the next falling-edge
service: the line is high and served, or low and not yet served (R36, R131). -/
abbrev CaptureFollowsLine (s : State) : Prop :=
  s.hazGlitch = false → s.mode = .anyEdge → s.cntRun = (s.level != s.edgePend)

/-- The invariant of the block. -/
abbrev BlockInv (s : State) : Prop :=
  InertBeforeInit s ∧ EnablesFollowInit s ∧ StoppedHasNoOverflow s ∧ SaturatedIsFull s ∧
    OverrunOnlyAfterRising s ∧ RisingOnlyRequests s ∧ CaptureFollowsLine s

end Sys2Proof.Machine
end

