-- ==== Sys2Proof/Certificates/Slice0/Obligations.lean ====
section
/-! DEFINITION. The statements about PCAP for the provers. A state equation `exec e s = .next { s with … }` states the
result and the frame at once: every field that it does not name is as before. -/

open Sys2Proof Sys2Proof.Machine

/-! Encoding (30_encoding.md) -/

/-- Every well-formed event is what the decoder reads from its word, at every operand (R71, R72). -/
def Obligations.EncodeThenDecodeGivesTheEvent : Prop :=
  ∀ i : Instr, i.wellFormed = true → decode (encode i) = .event i

/-- R73 and R74: with `op` and `data` the two numbers of a word, a word is refused by clause (a) exactly when `op` is 0
or at least 8, by clause (b) exactly when reserved data bits are set, is an event otherwise, and no two words are the
same event with the same operand. -/
def Obligations.DecoderIsTotalAndUnambiguous : Prop :=
  (∀ w : EventWord,
    let op := w.toNat / 2 ^ 16
    let data := w.toNat % 2 ^ 16
    let clauseA := op = 0 ∨ 8 ≤ op
    let clauseB := ((op = 1 ∨ op = 2 ∨ op = 4 ∨ op = 5 ∨ op = 6) ∧ data ≠ 0) ∨ (op = 3 ∧ data / 2 ≠ 0)
    (decode w = .illegal .opcode ↔ clauseA) ∧ (decode w = .illegal .data ↔ clauseB) ∧
      ((∃ i, decode w = .event i) ↔ ¬ clauseA ∧ ¬ clauseB)) ∧
  ∀ w w' i, decode w = .event i → decode w' = .event i → w = w'

/-- The opcode map, row by row: the events with their words, operands and agents, and the reserved opcodes (R71). -/
def Obligations.OpcodeMapIsTheTable : Prop :=
  (decode 0x10000 = .event .init ∧ Instr.init.agent = .foreground) ∧
  (decode 0x20000 = .event .tick ∧ Instr.tick.agent = .environment) ∧
  (∀ l : Bool, decode (if l then 0x30001 else 0x30000) = .event (.pin l) ∧ (Instr.pin l).agent = .environment) ∧
  (decode 0x40000 = .event .edgeSvc ∧ Instr.edgeSvc.agent = .interruptLayer) ∧
  (decode 0x50000 = .event .ovfSvc ∧ Instr.ovfSvc.agent = .interruptLayer) ∧
  (decode 0x60000 = .event .rds ∧ Instr.rds.agent = .foreground) ∧
  (∀ t : Word, decode (0x70000 + t.setWidth 20) = .event (.scale t) ∧ (Instr.scale t).agent = .foreground) ∧
  (∀ (op : BitVec 4) (data : Word), op ∈ [1, 2, 4, 5, 6] → data ≠ 0 → decode (op ++ data) = .illegal .data) ∧
  (∀ data : Word, 2 ≤ data.toNat → decode ((3 : BitVec 4) ++ data) = .illegal .data) ∧
  ∀ (op : BitVec 4) (data : Word), op = 0 ∨ 8 ≤ op.toNat → decode (op ++ data) = .illegal .opcode

/-- A word falls under a row of spec/opcode_table.json, by the row's mask and match, exactly when the decoder reads
that row's event from it. -/
def Obligations.TableRowsSelectTheDecodedEvent : Prop :=
  ∀ w : EventWord, ∀ r ∈ opcodeTable,
    (w &&& r.mask = r.word ↔ ∃ i, decode w = .event i ∧ i.mnemonic = r.mnemonic)

/-- The twenty words of the table of 95_test_vectors.md §2.6 decode as it says. -/
def Obligations.SpecWordsDecodeAsTheVectorsSay : Prop :=
  decode 0x10000 = .event .init ∧ decode 0x20000 = .event .tick ∧ decode 0x30000 = .event (.pin false) ∧
  decode 0x30001 = .event (.pin true) ∧ decode 0x40000 = .event .edgeSvc ∧ decode 0x50000 = .event .ovfSvc ∧
  decode 0x60000 = .event .rds ∧ decode 0x70000 = .event (.scale 0) ∧ decode 0x70BB8 = .event (.scale 3000) ∧
  decode 0x7FFFF = .event (.scale 65535) ∧ decode 0x00000 = .illegal .opcode ∧ decode 0x80000 = .illegal .opcode ∧
  decode 0xFFFFF = .illegal .opcode ∧ decode 0x10001 = .illegal .data ∧ decode 0x20001 = .illegal .data ∧
  decode 0x30002 = .illegal .data ∧ decode 0x38001 = .illegal .data ∧ decode 0x48000 = .illegal .data ∧
  decode 0x50010 = .illegal .data ∧ decode 0x60100 = .illegal .data

/-- The assembler, on events and on lines of text (30_encoding.md section 4). Each event is its word, TICK*n is n copies of 0x20000,
RISE is PIN 1 and EDGE_SVC, FALL is PIN 0 and EDGE_SVC, and a number or level out of range produces no word. A line is
its event whatever the comment after it, an empty line is no word, a number is read in decimal or as 0x and 1 to 4
hexadecimal digits, and a line that begins in lower case produces no word. The model's choices that it rests on (log 14):
hexadecimal digits in either case, leading zeros in a decimal number, and a line with a number or level out of range
ending in the error that its event has. -/
def Obligations.AssemblerEventsExpandToTheirWords : Prop :=
  assembleEvent .init = .words [0x10000] ∧ assembleEvent .tick = .words [0x20000] ∧
  assembleEvent .edgeSvc = .words [0x40000] ∧ assembleEvent .ovfSvc = .words [0x50000] ∧
  assembleEvent .rds = .words [0x60000] ∧
  (∀ n, n ≤ 1 → assembleEvent (.pin n) = .words [0x30000 + BitVec.ofNat 20 n]) ∧
  (∀ n, n ≤ 65535 → assembleEvent (.scale n) = .words [0x70000 + BitVec.ofNat 20 n]) ∧
  (∀ n, 1 ≤ n → n ≤ 2 ^ 20 → assembleEvent (.tickTimes n) = .words (List.replicate n 0x20000)) ∧
  assembleEvent .rise = .words [0x30001, 0x40000] ∧
  assembleEvent .fall = .words [0x30000, 0x40000] ∧
  (∀ n, 65535 < n → ∀ ws, assembleEvent (.scale n) ≠ .words ws) ∧
  (∀ n, 1 < n → ∀ ws, assembleEvent (.pin n) ≠ .words ws) ∧
  assembleLine [] = .words [] ∧
  (∀ line comment : List Char, ';' ∉ line → assembleLine (line ++ ';' :: comment) = assembleLine line) ∧
  assembleLine "INIT".toList = assembleEvent .init ∧ assembleLine "TICK".toList = assembleEvent .tick ∧
  assembleLine "EDGE_SVC".toList = assembleEvent .edgeSvc ∧ assembleLine "OVF_SVC".toList = assembleEvent .ovfSvc ∧
  assembleLine "RDS".toList = assembleEvent .rds ∧ assembleLine "RISE".toList = assembleEvent .rise ∧
  assembleLine "FALL".toList = assembleEvent .fall ∧
  (∀ d : Fin 10, assembleLine ("PIN ".toList ++ [Nat.digitChar d.val]) = assembleEvent (.pin d.val)) ∧
  (∀ ds : List (Fin 10), ds ≠ [] →
    let text := ds.map fun d => Nat.digitChar d.val
    let value := ds.foldl (fun acc d => acc * 10 + d.val) 0
    assembleLine ("SCALE #".toList ++ text) = assembleEvent (.scale value) ∧
      assembleLine ("TICK*".toList ++ text) = assembleEvent (.tickTimes value)) ∧
  (∀ ds : List (Fin 16 × Bool),
    let text := ds.map fun d => if d.2 then (Nat.digitChar d.1.val).toUpper else Nat.digitChar d.1.val
    let value := ds.foldl (fun acc d => acc * 16 + d.1.val) 0
    (1 ≤ ds.length → ds.length ≤ 4 → assembleLine ("SCALE #0x".toList ++ text) = assembleEvent (.scale value)) ∧
      (ds.length = 0 ∨ 4 < ds.length → ∀ ws, assembleLine ("SCALE #0x".toList ++ text) ≠ .words ws)) ∧
  ∀ (c : Char) (rest : List Char), 'a'.toNat ≤ c.toNat → c.toNat ≤ 'z'.toNat →
    ∀ ws, assembleLine (c :: rest) ≠ .words ws

/-! Steps and runs (60_exceptions.md) -/

/-- A step under a legal configuration takes the first word of the trace, and a legal word's step is its event in the
state without that word. -/
def Obligations.StepRunsTheDecodedEvent : Prop :=
  ∀ (s : State) (w : EventWord) (rest : List EventWord) (i : Instr),
    s.config.wellFormed = true → s.trace = w :: rest → decode w = .event i →
      step s = exec i { s with trace := rest }

/-- The end of a run is the model's named stop, with no change of state (R222; the stop's name is log 2). -/
def Obligations.StepStopsWhenTheTraceIsOver : Prop :=
  ∀ s : State, s.config.wellFormed = true → s.trace = [] → step s = .fault .traceEnded

/-- A bad configuration, or an illegal word met by the decoder, gives a run no next state (R214), and what is recorded
is that of R201. The refusal mark is the refused outcome, which stands however long the run is: the model's choice
(log 10). -/
def Obligations.RefusalHoldsForTheWholeRun : Prop :=
  ∀ (s : State) (n : Nat),
    (s.config.ticksHigh.toNat ≤ s.config.ticksLow.toNat →
      runSteps (n + 1) s = .refused (.badConfig s.config)) ∧
    ∀ (es : List Instr) (u : State) (w : EventWord) (rest : List EventWord) (c : IllegalClause),
      s.config.wellFormed = true → s.trace = es.map encode ++ w :: rest → decode w = .illegal c →
        runEvents es { s with trace := w :: rest } = .next u →
          runSteps (es.length + (n + 1)) s = .refused (.illegalEvent w c)

/-- The words of a list of events, run word by word from the trace, are the run of those events. -/
def Obligations.WordRunIsTheEventRun : Prop :=
  ∀ (es : List Instr) (rest : List EventWord) (s : State),
    s.config.wellFormed = true → s.trace = es.map encode ++ rest →
      runSteps es.length s = runEvents es { s with trace := rest }

/-- R75: which events have a step in a state; the step that meets the word of a service that has none has no next
state, which is different from an illegal word, refused whatever the state. The configuration is legal, as R8 asks of
every run. -/
def Obligations.EventsAreEnabledExactlyAsStated : Prop :=
  ∀ s : State, s.config.wellFormed = true →
    ((∃ t, exec .edgeSvc s = .next t) ↔ s.edgePend = true ∧ s.edgeIE = true) ∧
    ((∃ t, exec .ovfSvc s = .next t) ↔ s.ovfPend = true ∧ s.ovfIE = true) ∧
    (∀ e : Instr, e ≠ .edgeSvc → e ≠ .ovfSvc → ∃ t, exec e s = .next t) ∧
    ∀ (w : EventWord) (rest : List EventWord), s.trace = w :: rest →
      (w = 0x40000 → ¬ (s.edgePend = true ∧ s.edgeIE = true) → ∀ t r, step s ≠ .next t ∧ step s ≠ .refused r) ∧
      (w = 0x50000 → ¬ (s.ovfPend = true ∧ s.ovfIE = true) → ∀ t r, step s ≠ .next t ∧ step s ≠ .refused r) ∧
      ∀ c, decode w = .illegal c → step s = .refused (.illegalEvent w c)

/-! Reset (70_reset_and_hazards.md) -/

/-- R230, for every value of the draws, of the parameters and of the configuration that it leaves open. -/
def Obligations.ResetStateIsAsListed : Prop :=
  ∀ p : ResetParams,
    let s := State.resetWith p
    s.hwCnt = p.hwCnt0 ∧ s.cntRun = false ∧ s.ovfPend = false ∧ s.ovfCnt = p.ovfCnt0 ∧ s.ovfSat = p.ovfSat0 ∧
    s.mode = .risingOnly ∧ s.edgeIE = false ∧ s.ovfIE = false ∧ s.edgePend = false ∧ s.level = p.level0 ∧
    s.sample = p.sampleReset ∧ s.initDone = false ∧ s.faultOvfOverrun = false ∧ s.faultInitTwice = false ∧
    s.hazGlitch = false ∧ s.out = [] ∧ s.config = p.config

/-- Before INIT nothing but LEVEL and the output history changes, no service is enabled, and RDS and SCALE work
(R143). -/
def Obligations.BlockIsInertBeforeInit : Prop :=
  ∀ (p : ResetParams) (es : List Instr) (t : State),
    Instr.init ∉ es → runEvents es (State.resetWith p) = .next t →
      t = { State.resetWith p with level := t.level, out := t.out } ∧
      exec .tick t = .next t ∧
      (∀ l, exec (.pin l) t = .next { t with level := l }) ∧
      (∀ u, exec .edgeSvc t ≠ .next u) ∧
      (∀ u, exec .ovfSvc t ≠ .next u) ∧
      exec .rds t = .next { t with out := t.out ++ [⟨.rd, p.sampleReset⟩] } ∧
      (t.config.wellFormed = true → ∀ v,
        exec (.scale v) t = .next { t with out := t.out ++ [⟨.duty, scale p.config v⟩] })

/-! Initialization (42_init.md) -/

/-- INIT (R140, R141): the first sets both enables, RisingOnly, the running counter and INIT_DONE; a later one sets
FAULT_INIT_TWICE alone; nothing else is written. At the first one of a block whose state meets the invariant nothing is
pending, so that it causes no service. -/
def Obligations.InitSetsTheStartingStateOnce : Prop :=
  encode .init = 0x10000 ∧ Instr.init.agent = .foreground ∧ ∀ s : State,
    (s.initDone = false → exec .init s =
      .next { s with edgeIE := true, mode := .risingOnly, ovfIE := true, cntRun := true, initDone := true }) ∧
    (s.initDone = true → exec .init s = .next { s with faultInitTwice := true }) ∧
    (BlockInv s → s.initDone = false → s.edgePend = false ∧ s.ovfPend = false)

/-! The virtual counter (40_counter.md) -/

/-- TICK (R100, R101, R105): a stopped counter holds; below 0xFF it counts; at 0xFF it wraps, the overflow is pending,
and FAULT_OVF_OVERRUN is set where one was pending already in AnyEdge mode. Nothing else is written. -/
def Obligations.TickAdvancesTheCounter : Prop :=
  encode .tick = 0x20000 ∧ Instr.tick.agent = .environment ∧ ∀ s : State,
    (s.cntRun = false → exec .tick s = .next s) ∧
    (s.cntRun = true → s.hwCnt.toNat < 255 → exec .tick s = .next { s with hwCnt := s.hwCnt + 1 }) ∧
    (s.cntRun = true → s.hwCnt = 0xFF → s.ovfPend = true → s.mode = .anyEdge →
      exec .tick s = .next { s with hwCnt := 0x00, ovfPend := true, faultOvfOverrun := true }) ∧
    (s.cntRun = true → s.hwCnt = 0xFF → (s.ovfPend = false ∨ s.mode = .risingOnly) →
      exec .tick s = .next { s with hwCnt := 0x00, ovfPend := true })

/-- OVF_SVC (R104, with R103): enabled when its request and its enable are set, it counts the pending overflow, the
count stopping at 0xFF with OVF_SAT set, and clears the request. Nothing else is written. -/
def Obligations.OvfSvcCountsThePendingOverflow : Prop :=
  encode .ovfSvc = 0x50000 ∧ Instr.ovfSvc.agent = .interruptLayer ∧ ∀ s : State,
    (s.ovfPend = true → s.ovfIE = true → s.ovfCnt.toNat < 255 →
      exec .ovfSvc s = .next { s with ovfCnt := s.ovfCnt + 1, ovfPend := false }) ∧
    (s.ovfPend = true → s.ovfIE = true → s.ovfCnt = 0xFF →
      exec .ovfSvc s = .next { s with ovfSat := true, ovfPend := false }) ∧
    (s.ovfPend = false ∨ s.ovfIE = false → ∀ t, exec .ovfSvc s ≠ .next t)

/-- The composite tick value: OVF_CNT * 256 + HW_CNT, or 0xFFFF when saturated (R102). -/
def Obligations.CompositeIsTheWideCount : Prop :=
  ∀ c h : Byte, (composite c h false).toNat = c.toNat * 256 + h.toNat ∧ composite c h true = 0xFFFF

/-- The saturating overflow increment: it never wraps, and the flag records an increment of a full count (R103). -/
def Obligations.OverflowCountSaturates : Prop :=
  ∀ (c : Byte) (sat : Bool),
    (ovfNext c sat).1.toNat = min (c.toNat + 1) 255 ∧ ((ovfNext c sat).2 = true ↔ sat = true ∨ c = 0xFF)

/-! Edge capture (41_capture.md) -/

/-- PIN (R120 to R123): no transition, no change; a transition moves LEVEL, raises EDGE_PEND when the enable is set and
the mode is AnyEdge or the transition is rising, and sets HAZ_GLITCH when a request was waiting. Nothing else is
written. -/
def Obligations.PinDetectsTransitions : Prop :=
  encode (.pin false) = 0x30000 ∧ encode (.pin true) = 0x30001 ∧ (∀ l, (Instr.pin l).agent = .environment) ∧
  ∀ (s : State) (l : Bool),
    (l = s.level → exec (.pin l) s = .next s) ∧
    (l ≠ s.level → s.edgePend = false → s.edgeIE = true → (s.mode = .anyEdge ∨ l = true) →
      exec (.pin l) s = .next { s with level := l, edgePend := true }) ∧
    (l ≠ s.level → s.edgePend = false → (s.edgeIE = false ∨ (s.mode = .risingOnly ∧ l = false)) →
      exec (.pin l) s = .next { s with level := l }) ∧
    (l ≠ s.level → s.edgePend = true → exec (.pin l) s = .next { s with level := l, hazGlitch := true })

/-- EDGE_SVC with the line high (R125): the rising branch clears the counter, the Overflow Count, the saturation and
the pending overflow, starts the counter and leaves the mode at AnyEdge. Nothing else is written, SAMPLE among it. -/
def Obligations.EdgeSvcHighStartsThePulse : Prop :=
  ∀ s : State, s.edgePend = true → s.edgeIE = true → s.level = true →
    exec .edgeSvc s =
      .next { s with edgePend := false, mode := .anyEdge, hwCnt := 0x00, ovfCnt := 0x00, ovfSat := false,
                     ovfPend := false, cntRun := true }

/-- EDGE_SVC with the line low (R126): a pending overflow is counted first, the composite is published, the counter
stops. Nothing else is written. -/
def Obligations.EdgeSvcLowPublishesThePulse : Prop :=
  ∀ s : State, s.edgePend = true → s.edgeIE = true → s.level = false →
    (s.ovfPend = false → exec .edgeSvc s =
      .next { s with edgePend := false, sample := composite s.ovfCnt s.hwCnt s.ovfSat, cntRun := false }) ∧
    (s.ovfPend = true → s.ovfCnt.toNat < 255 → exec .edgeSvc s =
      .next { s with edgePend := false, ovfCnt := s.ovfCnt + 1, ovfPend := false,
                     sample := composite (s.ovfCnt + 1) s.hwCnt s.ovfSat, cntRun := false }) ∧
    (s.ovfPend = true → s.ovfCnt = 0xFF → exec .edgeSvc s =
      .next { s with edgePend := false, ovfSat := true, ovfPend := false, sample := 0xFFFF, cntRun := false })

/-- EDGE_SVC (R124): its word and agent, its enabling condition, the branch by the line's level alone, and the request
cleared. -/
def Obligations.EdgeSvcTakesTheBranchOfTheLevel : Prop :=
  encode .edgeSvc = 0x40000 ∧ Instr.edgeSvc.agent = .interruptLayer ∧ ∀ s : State,
    (s.edgePend = false ∨ s.edgeIE = false → ∀ t, exec .edgeSvc s ≠ .next t) ∧
    (s.edgePend = true → s.edgeIE = true → ∃ t, exec .edgeSvc s = .next t ∧ t.edgePend = false ∧
      t.level = s.level ∧ t.ovfPend = false ∧
      (s.level = true → t.cntRun = true ∧ t.mode = .anyEdge ∧ t.sample = s.sample) ∧
      (s.level = false → t.cntRun = false ∧ t.mode = s.mode ∧ t.hwCnt = s.hwCnt))

/-- The names that the model gives its stops and errors: a service that is not enabled (log 9), SCALE under a
configuration that R8 refuses (log 12), an assembler event whose number is out of range (log 14). They are the model's
choice. -/
def Obligations.StopsHaveTheModelsNames : Prop :=
  (∀ s : State, s.edgePend = false ∨ s.edgeIE = false → exec .edgeSvc s = .fault (.notEnabled .edge)) ∧
  (∀ s : State, s.ovfPend = false ∨ s.ovfIE = false → exec .ovfSvc s = .fault (.notEnabled .overflow)) ∧
  (∀ (s : State) (t : Word), s.config.ticksHigh.toNat ≤ s.config.ticksLow.toNat →
    exec (.scale t) s = .refused (.badConfig s.config)) ∧
  (∀ n, n = 0 ∨ 2 ^ 20 < n → assembleEvent (.tickTimes n) = .error .outOfRange) ∧
  (∀ n, 65535 < n → assembleEvent (.scale n) = .error .outOfRange) ∧
  ∀ n, 1 < n → assembleEvent (.pin n) = .error .outOfRange

/-! The sample latch and the scaler (44_latch.md, 43_scaler.md) -/

/-- RDS (R170): the whole sample is appended under RD; no element changes. It reads the same value after any run that
publishes nothing, a pulse in progress among them; from reset that is SAMPLE_RESET. -/
def Obligations.RdsReadsTheWholeSample : Prop :=
  encode .rds = 0x60000 ∧ Instr.rds.agent = .foreground ∧
  (∀ s : State, exec .rds s = .next { s with out := s.out ++ [⟨.rd, s.sample⟩] }) ∧
  (∀ (es : List Instr) (s t : State), runEvents es s = .next t → published es s = [] →
    exec .rds t = .next { t with out := t.out ++ [⟨.rd, s.sample⟩] }) ∧
  ∀ (p : ResetParams) (es : List Instr) (t : State), runEvents es (State.resetWith p) = .next t →
    published es (State.resetWith p) = [] → exec .rds t = .next { t with out := t.out ++ [⟨.rd, p.sampleReset⟩] }

/-- SCALE (R150, R151, R152): under a legal configuration it appends under DUTY the clamped, shifted, scaled and
truncated tick count, exactly; no element changes. -/
def Obligations.ScaleAppendsTheDutyValue : Prop :=
  ∀ (s : State) (t : Word), encode (.scale t) = 0x70000 + t.setWidth 20 ∧ (Instr.scale t).agent = .foreground ∧
    let lo := s.config.ticksLow.toNat
    let hi := s.config.ticksHigh.toNat
    lo < hi → ∃ d : Word, exec (.scale t) s = .next { s with out := s.out ++ [⟨.duty, d⟩] } ∧
      d.toNat = (min (max t.toNat lo) hi - lo) * s.config.dutyMax.toNat / (hi - lo)

/-- The pseudocode of R150 in 32-bit words: no product or difference wraps, and it gives the same duty value (R152). -/
def Obligations.ThirtyTwoBitScalerIsExact : Prop :=
  ∀ (c : Config) (T : Word), c.wellFormed = true →
    let t : BitVec 32 := T.setWidth 32
    let lo : BitVec 32 := c.ticksLow.setWidth 32
    let hi : BitVec 32 := c.ticksHigh.setWidth 32
    let dm : BitVec 32 := c.dutyMax.setWidth 32
    let tc := if t < lo then lo else if hi < t then hi else t
    (tc - lo).toNat * dm.toNat < 2 ^ 32 ∧ (((tc - lo) * dm) / (hi - lo)).setWidth 16 = scale c T

/-- "Output range: `[0, duty_max]` inclusive; monotonically non-decreasing in the input tick count" (R153). -/
def Obligations.ScalerIsBoundedAndMonotone : Prop :=
  ∀ c : Config, c.wellFormed = true →
    (∀ t : Word, (scale c t).toNat ≤ c.dutyMax.toNat) ∧
    ∀ t₁ t₂ : Word, t₁.toNat ≤ t₂.toNat → (scale c t₁).toNat ≤ (scale c t₂).toNat

/-- At and below TICKS_LOW the duty value is 0, at and above TICKS_HIGH it is DUTY_MAX (R154). -/
def Obligations.ScalerMeetsItsBounds : Prop :=
  ∀ (c : Config) (t : Word), c.wellFormed = true →
    (t.toNat ≤ c.ticksLow.toNat → scale c t = 0) ∧ (c.ticksHigh.toNat ≤ t.toNat → scale c t = c.dutyMax)

/-- The midpoint (R155): exact when the range is even, within the bound when it is odd. -/
def Obligations.ScalerMidpointIsHalf : Prop :=
  ∀ (c : Config) (m : Word), c.wellFormed = true → m.toNat = (c.ticksLow.toNat + c.ticksHigh.toNat) / 2 →
    let w := c.ticksHigh.toNat - c.ticksLow.toNat
    let dm := c.dutyMax.toNat
    (w % 2 = 0 → (scale c m).toNat = dm / 2) ∧
    (w % 2 = 1 →
      (dm : ℚ) / 2 - (dm : ℚ) / (2 * (w : ℚ)) - 1 < ((scale c m).toNat : ℚ) ∧
        ((scale c m).toNat : ℚ) ≤ (dm : ℚ) / 2)

/-- R173: the duty value of a sample read by RDS depends on that value and the configuration alone, whatever events
come between the two. -/
def Obligations.DutyOfAReadSampleIgnoresLaterEvents : Prop :=
  ∀ (es : List Instr) (s t : State), runEvents (.rds :: es ++ [.scale s.sample]) s = .next t →
    ∃ between : List OutEntry,
      t.out = s.out ++ ⟨.rd, s.sample⟩ :: between ++ [⟨.duty, scale s.config s.sample⟩]

/-! What events can touch and see (10_state.md R37, 20_memory.md) -/

/-- An event changes no element that the W entries of R37 do not give it. -/
def Obligations.EventsWriteOnlyWhatTheyMay : Prop :=
  ∀ (e : Instr) (s t : State), exec e s = .next t → ∀ x : Element, mayWrite e x = false → t.read x = s.read x

/-- An event's effect depends on no element that the R entries of R37 do not give it: from two states alike in those
entries and in the configuration, it is taken in both or in neither, it appends the same outputs, and each element is
written with one value in both or kept in both. -/
def Obligations.EventsSeeOnlyWhatTheyMay : Prop :=
  ∀ (e : Instr) (s₁ s₂ t₁ : State), s₁.config = s₂.config →
    (∀ x : Element, mayRead e x = true → s₁.read x = s₂.read x) → exec e s₁ = .next t₁ →
      ∃ (t₂ : State) (new : List OutEntry), exec e s₂ = .next t₂ ∧
        t₁.out = s₁.out ++ new ∧ t₂.out = s₂.out ++ new ∧
        ∀ x : Element, t₁.read x = t₂.read x ∨ (t₁.read x = s₁.read x ∧ t₂.read x = s₂.read x)

/-- No event writes the configuration, the output history only grows by the event's own output, and a step takes one
word off the trace (R39, R59). -/
def Obligations.StepKeepsConfigurationAndHistory : Prop :=
  ∀ s t : State, step s = .next t →
    ∃ (w : EventWord) (i : Instr), decode w = .event i ∧ s.trace = w :: t.trace ∧ t.config = s.config ∧
      t.out = s.out ++ outputOf i s

/-- SAMPLE has one writer: a step that changes it is a falling-edge service (R55). -/
def Obligations.OnlyAFallingServiceWritesTheSample : Prop :=
  ∀ (e : Instr) (s t : State), exec e s = .next t → t.sample ≠ s.sample →
    e = .edgeSvc ∧ s.level = false ∧ s.edgePend = true ∧ s.edgeIE = true ∧
      t.sample = composite t.ovfCnt s.hwCnt t.ovfSat

/-- Last write wins (R172): RDS returns the last value that the run before it published; if it published none, what
SAMPLE held at its start, which is SAMPLE_RESET for a run from reset. -/
def Obligations.RdsReturnsTheLastPublishedValue : Prop :=
  ∀ (es : List Instr) (s t : State), runEvents es s = .next t →
    exec .rds t = .next { t with out := t.out ++ [⟨.rd, (published es s).getLastD s.sample⟩] }

/-- No torn value (R171): every value RDS returned in a run from reset is one whole value that the run published, or
SAMPLE_RESET. -/
def Obligations.NoReadIsTorn : Prop :=
  ∀ (p : ResetParams) (es : List Instr) (t : State), runEvents es (State.resetWith p) = .next t →
    ∀ o ∈ t.out, o.port = .rd → o.value = p.sampleReset ∨ o.value ∈ published es (State.resetWith p)

/-- The control points' bits (R38). -/
def Obligations.ControlPointsHaveTheirBits : Prop :=
  ∀ s : State, s.cp0.getLsbD 0 = s.edgeIE ∧ s.cp0.getLsbD 1 = s.ovfIE ∧
    (s.cp1.getLsbD 0 = true ↔ s.mode = .anyEdge) ∧ s.cp2 = s.hwCnt ∧ s.cp3.getLsbD 0 = s.cntRun ∧
    s.cp4.getLsbD 0 = s.ovfPend

/-! Promises over runs -/

/-- The invariant holds at every reset state, whatever R230 leaves open. -/
def Obligations.InvariantHoldsAtReset : Prop := ∀ p : ResetParams, BlockInv (State.resetWith p)

/-- Every step keeps the invariant, from every state that meets it. -/
def Obligations.EveryStepKeepsTheInvariant : Prop := ∀ s t : State, BlockInv s → step s = .next t → BlockInv t

/-- The mode changes one way (R127): only the first INIT, which writes RisingOnly, and a rising-edge service, which
leaves AnyEdge, can change it, and no run leaves AnyEdge again. -/
def Obligations.ModeNeverReturnsToRisingOnly : Prop :=
  (∀ (e : Instr) (s t : State), exec e s = .next t → t.mode ≠ s.mode →
    (e = .init ∧ s.initDone = false ∧ t.mode = .risingOnly) ∨
    (e = .edgeSvc ∧ s.level = true ∧ t.mode = .anyEdge)) ∧
  (∀ s t : State, s.level = true → exec .edgeSvc s = .next t → t.mode = .anyEdge) ∧
  ∀ (es : List Instr) (s t : State), BlockInv s → s.mode = .anyEdge → runEvents es s = .next t → t.mode = .anyEdge

/-- The fault bits and the hazard flag are never cleared, and no run takes an enable or INIT_DONE back (R212, R213,
R62). -/
def Obligations.StickyBitsAndEnablesStaySet : Prop :=
  ∀ (es : List Instr) (s t : State), runEvents es s = .next t →
    (s.faultOvfOverrun = true → t.faultOvfOverrun = true) ∧ (s.faultInitTwice = true → t.faultInitTwice = true) ∧
    (s.hazGlitch = true → t.hazGlitch = true) ∧ (s.edgeIE = true → t.edgeIE = true) ∧
    (s.ovfIE = true → t.ovfIE = true) ∧ (s.initDone = true → t.initDone = true)

/-- A request stays until it is cleared where R202 and R203 say: EDGE_PEND by EDGE_SVC alone, OVF_PEND by OVF_SVC and
EDGE_SVC; so a service that is enabled stays enabled over a run without those events. -/
def Obligations.RequestsWaitForTheirService : Prop :=
  ∀ (es : List Instr) (s t : State), Instr.edgeSvc ∉ es → runEvents es s = .next t →
    (s.requested .edge = true → t.requested .edge = true) ∧
    (Instr.ovfSvc ∉ es → s.requested .overflow = true → t.requested .overflow = true)

/-- Simultaneous overflow and edge (R207): with both services enabled, either order leaves the same state, the sample
among it, and after EDGE_SVC alone OVF_SVC is no longer enabled. -/
def Obligations.ServiceOrderDoesNotMatter : Prop :=
  ∀ s : State, s.requested .edge = true → s.requested .overflow = true →
    ∃ u v : State, exec .ovfSvc s = .next u ∧ exec .edgeSvc u = .next v ∧ exec .edgeSvc s = .next v ∧
      ∀ t, exec .ovfSvc v ≠ .next t

/-- The first capture after INIT is a true pulse (R130): in a run from reset without a glitch, the first EDGE_SVC finds
the line high; and a falling transition in RisingOnly mode raises no request. -/
def Obligations.FirstServiceIsRising : Prop :=
  (∀ (p : ResetParams) (es : List Instr) (t u : State),
    Instr.edgeSvc ∉ es → runEvents es (State.resetWith p) = .next t → t.glitchFree → exec .edgeSvc t = .next u →
      t.level = true ∧ u.captureActive = true ∧ u.tickCount = 0) ∧
  ∀ s t : State, s.mode = .risingOnly → s.edgePend = false → exec (.pin false) s = .next t → t.edgePend = false

/-- With no glitch the branches alternate (R131): from one EDGE_SVC to the next the branch changes; a request's service
finds the level of the transition that raised it; a falling branch finds the counter running, a rising one no capture
in progress. -/
def Obligations.BranchesAlternateWithoutGlitch : Prop :=
  (∀ (es : List Instr) (s u v w : State),
    BlockInv s → exec .edgeSvc s = .next u → Instr.edgeSvc ∉ es → runEvents es u = .next v → exec .edgeSvc v = .next w →
      w.glitchFree → v.level = !s.level) ∧
  (∀ (es : List Instr) (s u v : State) (l : Bool),
    s.edgePend = false → exec (.pin l) s = .next u → u.edgePend = true → Instr.edgeSvc ∉ es →
      runEvents es u = .next v → v.glitchFree → v.level = l) ∧
  ∀ s t : State, BlockInv s → exec .edgeSvc s = .next t → s.glitchFree →
    (s.level = false → s.cntRun = true) ∧ (s.level = true → s.captureActive = false)

/-- Virtual counter correctness and the pulse-width law (R107, R129): a rising-edge service, then a run with `k` ticks
and no edge service, then a falling-edge service, in a run whose overrun fault and hazard flag stay 0, publishes
`min(k, 65535)`, which is `(N << 8) | c` up to 65535 and 0xFFFF beyond. -/
def Obligations.SampleIsThePulseWidth : Prop :=
  ∀ (es : List Instr) (s u v w : State),
    BlockInv s → s.level = true → exec .edgeSvc s = .next u → Instr.edgeSvc ∉ es → runEvents es u = .next v →
      v.level = false → exec .edgeSvc v = .next w → w.faultOvfOverrun = false → w.glitchFree →
        let k := es.count .tick
        w.sample.toNat = min k 65535 ∧
        (k ≤ 65535 → w.sample = (BitVec.ofNat 16 (k / 256) <<< 8) ||| BitVec.ofNat 16 (k % 256)) ∧
        (65535 < k → w.sample = 0xFFFF)

/-- Latency enters the measurement (R236): with `a` ticks before the rising service, `b` before the falling one, and
`w` ticks of the line high, the sample is `min(w - a + b, 65535)`. -/
def Obligations.LatencyEntersTheMeasurement : Prop :=
  ∀ (before during after : List Instr) (s t : State),
    (∀ e ∈ before ++ during ++ after, e ≠ .edgeSvc ∧ ∀ l, e ≠ .pin l) → BlockInv s → s.level = false →
      runEvents (.pin true :: before ++ .edgeSvc :: during ++ .pin false :: after ++ [.edgeSvc]) s = .next t →
        t.faultOvfOverrun = false → t.glitchFree →
          let a := before.count .tick
          let w := (before ++ during).count .tick
          let b := after.count .tick
          t.sample.toNat = min (w - a + b) 65535

/-- The virtual count (R41): in active capture, with no overrun, no saturation and no glitch, TICK raises it by exactly
1 and no other event changes it. -/
def Obligations.OnlyTicksMoveTheVirtualCount : Prop :=
  ∀ (e : Instr) (s t : State),
    BlockInv s → s.captureActive = true → s.glitchFree → exec e s = .next t → t.faultOvfOverrun = false →
      t.ovfSat = false → t.tickCount = s.tickCount + (if e = .tick then 1 else 0)

/-- Overflow service latency (R234): in active capture with an overflow pending, a run without either service sets
FAULT_OVF_OVERRUN exactly when its ticks reach the next wrap. -/
def Obligations.UnservicedOverflowFaultsAtTheNextWrap : Prop :=
  ∀ (es : List Instr) (s t : State),
    BlockInv s → s.captureActive = true → s.ovfPend = true → Instr.edgeSvc ∉ es → Instr.ovfSvc ∉ es →
      runEvents es s = .next t →
        (t.faultOvfOverrun = true ↔ s.faultOvfOverrun = true ∨ 256 ≤ s.hwCnt.toNat + es.count .tick)

/-- Nothing counted before the first rising-edge service reaches a sample (R106): two runs of the same events from
reset states that differ in HW_CNT0, OVF_CNT0 and OVF_SAT0 alone, with an edge service and no glitch, end in the same
state with the same outputs. -/
def Obligations.CounterDrawsLeaveNoTrace : Prop :=
  ∀ (p : ResetParams) (h c : Byte) (sat : Bool) (es : List Instr) (t₁ t₂ : State),
    Instr.edgeSvc ∈ es → runEvents es (State.resetWith p) = .next t₁ →
      runEvents es (State.resetWith { p with hwCnt0 := h, ovfCnt0 := c, ovfSat0 := sat }) = .next t₂ →
        t₁.glitchFree → t₁ = t₂
end

