-- ==== Sys2Proof/Laws/State.lean ====
section
/-! SUPPORT. What each named update does to each field of the state: one lemma per field per update, so that no later
proof unfolds a record update. -/

namespace Sys2Proof.Machine

open Sys2Proof

variable (s : State) (v : Word) (p : Port) (c : Bool) (b : StickyBit) (src : Source) (l : Bool) (w : EventWord)

/-! publish -/

@[simp] theorem State.publish_hwCnt : (s.publish v).hwCnt = s.hwCnt := rfl
@[simp] theorem State.publish_cntRun : (s.publish v).cntRun = s.cntRun := rfl
@[simp] theorem State.publish_ovfPend : (s.publish v).ovfPend = s.ovfPend := rfl
@[simp] theorem State.publish_ovfCnt : (s.publish v).ovfCnt = s.ovfCnt := rfl
@[simp] theorem State.publish_ovfSat : (s.publish v).ovfSat = s.ovfSat := rfl
@[simp] theorem State.publish_mode : (s.publish v).mode = s.mode := rfl
@[simp] theorem State.publish_edgeIE : (s.publish v).edgeIE = s.edgeIE := rfl
@[simp] theorem State.publish_ovfIE : (s.publish v).ovfIE = s.ovfIE := rfl
@[simp] theorem State.publish_edgePend : (s.publish v).edgePend = s.edgePend := rfl
@[simp] theorem State.publish_level : (s.publish v).level = s.level := rfl
@[simp] theorem State.publish_sample : (s.publish v).sample = v := rfl
@[simp] theorem State.publish_initDone : (s.publish v).initDone = s.initDone := rfl
@[simp] theorem State.publish_faultOvfOverrun : (s.publish v).faultOvfOverrun = s.faultOvfOverrun := rfl
@[simp] theorem State.publish_faultInitTwice : (s.publish v).faultInitTwice = s.faultInitTwice := rfl
@[simp] theorem State.publish_hazGlitch : (s.publish v).hazGlitch = s.hazGlitch := rfl
@[simp] theorem State.publish_config : (s.publish v).config = s.config := rfl
@[simp] theorem State.publish_out : (s.publish v).out = s.out := rfl
@[simp] theorem State.publish_trace : (s.publish v).trace = s.trace := rfl

/-! emit -/

@[simp] theorem State.emit_hwCnt : (s.emit p v).hwCnt = s.hwCnt := rfl
@[simp] theorem State.emit_cntRun : (s.emit p v).cntRun = s.cntRun := rfl
@[simp] theorem State.emit_ovfPend : (s.emit p v).ovfPend = s.ovfPend := rfl
@[simp] theorem State.emit_ovfCnt : (s.emit p v).ovfCnt = s.ovfCnt := rfl
@[simp] theorem State.emit_ovfSat : (s.emit p v).ovfSat = s.ovfSat := rfl
@[simp] theorem State.emit_mode : (s.emit p v).mode = s.mode := rfl
@[simp] theorem State.emit_edgeIE : (s.emit p v).edgeIE = s.edgeIE := rfl
@[simp] theorem State.emit_ovfIE : (s.emit p v).ovfIE = s.ovfIE := rfl
@[simp] theorem State.emit_edgePend : (s.emit p v).edgePend = s.edgePend := rfl
@[simp] theorem State.emit_level : (s.emit p v).level = s.level := rfl
@[simp] theorem State.emit_sample : (s.emit p v).sample = s.sample := rfl
@[simp] theorem State.emit_initDone : (s.emit p v).initDone = s.initDone := rfl
@[simp] theorem State.emit_faultOvfOverrun : (s.emit p v).faultOvfOverrun = s.faultOvfOverrun := rfl
@[simp] theorem State.emit_faultInitTwice : (s.emit p v).faultInitTwice = s.faultInitTwice := rfl
@[simp] theorem State.emit_hazGlitch : (s.emit p v).hazGlitch = s.hazGlitch := rfl
@[simp] theorem State.emit_config : (s.emit p v).config = s.config := rfl
@[simp] theorem State.emit_out : (s.emit p v).out = s.out ++ [⟨p, v⟩] := rfl
@[simp] theorem State.emit_trace : (s.emit p v).trace = s.trace := rfl

/-! raiseIf -/

@[simp] theorem State.raiseIf_hwCnt : (s.raiseIf c b).hwCnt = s.hwCnt := by cases b <;> rfl
@[simp] theorem State.raiseIf_cntRun : (s.raiseIf c b).cntRun = s.cntRun := by cases b <;> rfl
@[simp] theorem State.raiseIf_ovfPend : (s.raiseIf c b).ovfPend = s.ovfPend := by cases b <;> rfl
@[simp] theorem State.raiseIf_ovfCnt : (s.raiseIf c b).ovfCnt = s.ovfCnt := by cases b <;> rfl
@[simp] theorem State.raiseIf_ovfSat : (s.raiseIf c b).ovfSat = s.ovfSat := by cases b <;> rfl
@[simp] theorem State.raiseIf_mode : (s.raiseIf c b).mode = s.mode := by cases b <;> rfl
@[simp] theorem State.raiseIf_edgeIE : (s.raiseIf c b).edgeIE = s.edgeIE := by cases b <;> rfl
@[simp] theorem State.raiseIf_ovfIE : (s.raiseIf c b).ovfIE = s.ovfIE := by cases b <;> rfl
@[simp] theorem State.raiseIf_edgePend : (s.raiseIf c b).edgePend = s.edgePend := by cases b <;> rfl
@[simp] theorem State.raiseIf_level : (s.raiseIf c b).level = s.level := by cases b <;> rfl
@[simp] theorem State.raiseIf_sample : (s.raiseIf c b).sample = s.sample := by cases b <;> rfl
@[simp] theorem State.raiseIf_initDone : (s.raiseIf c b).initDone = s.initDone := by cases b <;> rfl
@[simp] theorem State.raiseIf_faultOvfOverrun : (s.raiseIf c b).faultOvfOverrun = (s.faultOvfOverrun || (c && decide (b = .ovfOverrun))) := by
  cases b <;> simp [State.raiseIf]
@[simp] theorem State.raiseIf_faultInitTwice : (s.raiseIf c b).faultInitTwice = (s.faultInitTwice || (c && decide (b = .initTwice))) := by
  cases b <;> simp [State.raiseIf]
@[simp] theorem State.raiseIf_hazGlitch : (s.raiseIf c b).hazGlitch = (s.hazGlitch || (c && decide (b = .glitch))) := by
  cases b <;> simp [State.raiseIf]
@[simp] theorem State.raiseIf_config : (s.raiseIf c b).config = s.config := by cases b <;> rfl
@[simp] theorem State.raiseIf_out : (s.raiseIf c b).out = s.out := by cases b <;> rfl
@[simp] theorem State.raiseIf_trace : (s.raiseIf c b).trace = s.trace := by cases b <;> rfl

/-! ovfInc -/

@[simp] theorem State.ovfInc_hwCnt : s.ovfInc.hwCnt = s.hwCnt := rfl
@[simp] theorem State.ovfInc_cntRun : s.ovfInc.cntRun = s.cntRun := rfl
@[simp] theorem State.ovfInc_ovfPend : s.ovfInc.ovfPend = s.ovfPend := rfl
@[simp] theorem State.ovfInc_ovfCnt : s.ovfInc.ovfCnt = (ovfNext s.ovfCnt s.ovfSat).1 := rfl
@[simp] theorem State.ovfInc_ovfSat : s.ovfInc.ovfSat = (ovfNext s.ovfCnt s.ovfSat).2 := rfl
@[simp] theorem State.ovfInc_mode : s.ovfInc.mode = s.mode := rfl
@[simp] theorem State.ovfInc_edgeIE : s.ovfInc.edgeIE = s.edgeIE := rfl
@[simp] theorem State.ovfInc_ovfIE : s.ovfInc.ovfIE = s.ovfIE := rfl
@[simp] theorem State.ovfInc_edgePend : s.ovfInc.edgePend = s.edgePend := rfl
@[simp] theorem State.ovfInc_level : s.ovfInc.level = s.level := rfl
@[simp] theorem State.ovfInc_sample : s.ovfInc.sample = s.sample := rfl
@[simp] theorem State.ovfInc_initDone : s.ovfInc.initDone = s.initDone := rfl
@[simp] theorem State.ovfInc_faultOvfOverrun : s.ovfInc.faultOvfOverrun = s.faultOvfOverrun := rfl
@[simp] theorem State.ovfInc_faultInitTwice : s.ovfInc.faultInitTwice = s.faultInitTwice := rfl
@[simp] theorem State.ovfInc_hazGlitch : s.ovfInc.hazGlitch = s.hazGlitch := rfl
@[simp] theorem State.ovfInc_config : s.ovfInc.config = s.config := rfl
@[simp] theorem State.ovfInc_out : s.ovfInc.out = s.out := rfl
@[simp] theorem State.ovfInc_trace : s.ovfInc.trace = s.trace := rfl

/-! enterService -/

@[simp] theorem State.enterService_hwCnt : (s.enterService src).hwCnt = s.hwCnt := by cases src <;> rfl
@[simp] theorem State.enterService_cntRun : (s.enterService src).cntRun = s.cntRun := by cases src <;> rfl
@[simp] theorem State.enterService_ovfPend : (s.enterService src).ovfPend = (s.ovfPend && decide (src ≠ .overflow)) := by
  cases src <;> simp [State.enterService]
@[simp] theorem State.enterService_ovfCnt : (s.enterService src).ovfCnt = s.ovfCnt := by cases src <;> rfl
@[simp] theorem State.enterService_ovfSat : (s.enterService src).ovfSat = s.ovfSat := by cases src <;> rfl
@[simp] theorem State.enterService_mode : (s.enterService src).mode = s.mode := by cases src <;> rfl
@[simp] theorem State.enterService_edgeIE : (s.enterService src).edgeIE = s.edgeIE := by cases src <;> rfl
@[simp] theorem State.enterService_ovfIE : (s.enterService src).ovfIE = s.ovfIE := by cases src <;> rfl
@[simp] theorem State.enterService_edgePend : (s.enterService src).edgePend = (s.edgePend && decide (src ≠ .edge)) := by
  cases src <;> simp [State.enterService]
@[simp] theorem State.enterService_level : (s.enterService src).level = s.level := by cases src <;> rfl
@[simp] theorem State.enterService_sample : (s.enterService src).sample = s.sample := by cases src <;> rfl
@[simp] theorem State.enterService_initDone : (s.enterService src).initDone = s.initDone := by cases src <;> rfl
@[simp] theorem State.enterService_faultOvfOverrun : (s.enterService src).faultOvfOverrun = s.faultOvfOverrun := by cases src <;> rfl
@[simp] theorem State.enterService_faultInitTwice : (s.enterService src).faultInitTwice = s.faultInitTwice := by cases src <;> rfl
@[simp] theorem State.enterService_hazGlitch : (s.enterService src).hazGlitch = s.hazGlitch := by cases src <;> rfl
@[simp] theorem State.enterService_config : (s.enterService src).config = s.config := by cases src <;> rfl
@[simp] theorem State.enterService_out : (s.enterService src).out = s.out := by cases src <;> rfl
@[simp] theorem State.enterService_trace : (s.enterService src).trace = s.trace := by cases src <;> rfl

/-! leaveService -/

@[simp] theorem State.leaveService_hwCnt : s.leaveService.hwCnt = s.hwCnt := rfl
@[simp] theorem State.leaveService_cntRun : s.leaveService.cntRun = s.cntRun := rfl
@[simp] theorem State.leaveService_ovfPend : s.leaveService.ovfPend = s.ovfPend := rfl
@[simp] theorem State.leaveService_ovfCnt : s.leaveService.ovfCnt = s.ovfCnt := rfl
@[simp] theorem State.leaveService_ovfSat : s.leaveService.ovfSat = s.ovfSat := rfl
@[simp] theorem State.leaveService_mode : s.leaveService.mode = s.mode := rfl
@[simp] theorem State.leaveService_edgeIE : s.leaveService.edgeIE = s.edgeIE := rfl
@[simp] theorem State.leaveService_ovfIE : s.leaveService.ovfIE = s.ovfIE := rfl
@[simp] theorem State.leaveService_edgePend : s.leaveService.edgePend = s.edgePend := rfl
@[simp] theorem State.leaveService_level : s.leaveService.level = s.level := rfl
@[simp] theorem State.leaveService_sample : s.leaveService.sample = s.sample := rfl
@[simp] theorem State.leaveService_initDone : s.leaveService.initDone = s.initDone := rfl
@[simp] theorem State.leaveService_faultOvfOverrun : s.leaveService.faultOvfOverrun = s.faultOvfOverrun := rfl
@[simp] theorem State.leaveService_faultInitTwice : s.leaveService.faultInitTwice = s.faultInitTwice := rfl
@[simp] theorem State.leaveService_hazGlitch : s.leaveService.hazGlitch = s.hazGlitch := rfl
@[simp] theorem State.leaveService_config : s.leaveService.config = s.config := rfl
@[simp] theorem State.leaveService_out : s.leaveService.out = s.out := rfl
@[simp] theorem State.leaveService_trace : s.leaveService.trace = s.trace := rfl

/-! advance -/

@[simp] theorem State.advance_hwCnt : s.advance.hwCnt = s.hwCnt + 1 := by
  unfold State.advance State.raiseIf; cases h : s.atWrap <;> simp
  simp only [State.atWrap, beq_iff_eq] at h; rw [h]; decide
@[simp] theorem State.advance_cntRun : s.advance.cntRun = s.cntRun := by
  unfold State.advance State.raiseIf; cases s.atWrap <;> rfl
@[simp] theorem State.advance_ovfPend : s.advance.ovfPend = (s.ovfPend || s.atWrap) := by
  unfold State.advance State.raiseIf; cases s.atWrap <;> simp
@[simp] theorem State.advance_ovfCnt : s.advance.ovfCnt = s.ovfCnt := by
  unfold State.advance State.raiseIf; cases s.atWrap <;> rfl
@[simp] theorem State.advance_ovfSat : s.advance.ovfSat = s.ovfSat := by
  unfold State.advance State.raiseIf; cases s.atWrap <;> rfl
@[simp] theorem State.advance_mode : s.advance.mode = s.mode := by unfold State.advance State.raiseIf; cases s.atWrap <;> rfl
@[simp] theorem State.advance_edgeIE : s.advance.edgeIE = s.edgeIE := by
  unfold State.advance State.raiseIf; cases s.atWrap <;> rfl
@[simp] theorem State.advance_ovfIE : s.advance.ovfIE = s.ovfIE := by
  unfold State.advance State.raiseIf; cases s.atWrap <;> rfl
@[simp] theorem State.advance_edgePend : s.advance.edgePend = s.edgePend := by
  unfold State.advance State.raiseIf; cases s.atWrap <;> rfl
@[simp] theorem State.advance_level : s.advance.level = s.level := by
  unfold State.advance State.raiseIf; cases s.atWrap <;> rfl
@[simp] theorem State.advance_sample : s.advance.sample = s.sample := by
  unfold State.advance State.raiseIf; cases s.atWrap <;> rfl
@[simp] theorem State.advance_initDone : s.advance.initDone = s.initDone := by
  unfold State.advance State.raiseIf; cases s.atWrap <;> rfl
@[simp] theorem State.advance_faultOvfOverrun : s.advance.faultOvfOverrun = (s.faultOvfOverrun || (s.atWrap && s.overruns)) := by
  unfold State.advance State.raiseIf; cases s.atWrap <;> simp
@[simp] theorem State.advance_faultInitTwice : s.advance.faultInitTwice = s.faultInitTwice := by
  unfold State.advance State.raiseIf; cases s.atWrap <;> rfl
@[simp] theorem State.advance_hazGlitch : s.advance.hazGlitch = s.hazGlitch := by
  unfold State.advance State.raiseIf; cases s.atWrap <;> rfl
@[simp] theorem State.advance_config : s.advance.config = s.config := by
  unfold State.advance State.raiseIf; cases s.atWrap <;> rfl
@[simp] theorem State.advance_out : s.advance.out = s.out := by unfold State.advance State.raiseIf; cases s.atWrap <;> rfl
@[simp] theorem State.advance_trace : s.advance.trace = s.trace := by
  unfold State.advance State.raiseIf; cases s.atWrap <;> rfl

/-! lineChange -/

@[simp] theorem State.lineChange_hwCnt : (s.lineChange l).hwCnt = s.hwCnt := rfl
@[simp] theorem State.lineChange_cntRun : (s.lineChange l).cntRun = s.cntRun := rfl
@[simp] theorem State.lineChange_ovfPend : (s.lineChange l).ovfPend = s.ovfPend := rfl
@[simp] theorem State.lineChange_ovfCnt : (s.lineChange l).ovfCnt = s.ovfCnt := rfl
@[simp] theorem State.lineChange_ovfSat : (s.lineChange l).ovfSat = s.ovfSat := rfl
@[simp] theorem State.lineChange_mode : (s.lineChange l).mode = s.mode := rfl
@[simp] theorem State.lineChange_edgeIE : (s.lineChange l).edgeIE = s.edgeIE := rfl
@[simp] theorem State.lineChange_ovfIE : (s.lineChange l).ovfIE = s.ovfIE := rfl
@[simp] theorem State.lineChange_edgePend : (s.lineChange l).edgePend = (s.edgePend || s.qualifies l) := rfl
@[simp] theorem State.lineChange_level : (s.lineChange l).level = l := rfl
@[simp] theorem State.lineChange_sample : (s.lineChange l).sample = s.sample := rfl
@[simp] theorem State.lineChange_initDone : (s.lineChange l).initDone = s.initDone := rfl
@[simp] theorem State.lineChange_faultOvfOverrun : (s.lineChange l).faultOvfOverrun = s.faultOvfOverrun := rfl
@[simp] theorem State.lineChange_faultInitTwice : (s.lineChange l).faultInitTwice = s.faultInitTwice := rfl
@[simp] theorem State.lineChange_hazGlitch : (s.lineChange l).hazGlitch = (s.hazGlitch || s.edgePend) := by simp [State.lineChange]
@[simp] theorem State.lineChange_config : (s.lineChange l).config = s.config := rfl
@[simp] theorem State.lineChange_out : (s.lineChange l).out = s.out := rfl
@[simp] theorem State.lineChange_trace : (s.lineChange l).trace = s.trace := rfl

/-! risingBranch -/

@[simp] theorem State.risingBranch_hwCnt : s.risingBranch.hwCnt = 0x00 := rfl
@[simp] theorem State.risingBranch_cntRun : s.risingBranch.cntRun = true := rfl
@[simp] theorem State.risingBranch_ovfPend : s.risingBranch.ovfPend = false := rfl
@[simp] theorem State.risingBranch_ovfCnt : s.risingBranch.ovfCnt = 0x00 := rfl
@[simp] theorem State.risingBranch_ovfSat : s.risingBranch.ovfSat = false := rfl
@[simp] theorem State.risingBranch_mode : s.risingBranch.mode = .anyEdge := rfl
@[simp] theorem State.risingBranch_edgeIE : s.risingBranch.edgeIE = s.edgeIE := rfl
@[simp] theorem State.risingBranch_ovfIE : s.risingBranch.ovfIE = s.ovfIE := rfl
@[simp] theorem State.risingBranch_edgePend : s.risingBranch.edgePend = s.edgePend := rfl
@[simp] theorem State.risingBranch_level : s.risingBranch.level = s.level := rfl
@[simp] theorem State.risingBranch_sample : s.risingBranch.sample = s.sample := rfl
@[simp] theorem State.risingBranch_initDone : s.risingBranch.initDone = s.initDone := rfl
@[simp] theorem State.risingBranch_faultOvfOverrun : s.risingBranch.faultOvfOverrun = s.faultOvfOverrun := rfl
@[simp] theorem State.risingBranch_faultInitTwice : s.risingBranch.faultInitTwice = s.faultInitTwice := rfl
@[simp] theorem State.risingBranch_hazGlitch : s.risingBranch.hazGlitch = s.hazGlitch := rfl
@[simp] theorem State.risingBranch_config : s.risingBranch.config = s.config := rfl
@[simp] theorem State.risingBranch_out : s.risingBranch.out = s.out := rfl
@[simp] theorem State.risingBranch_trace : s.risingBranch.trace = s.trace := rfl

/-! fallingBranch -/

@[simp] theorem State.fallingBranch_hwCnt : s.fallingBranch.hwCnt = s.hwCnt := by
  unfold State.fallingBranch State.publish; cases s.ovfPend <;> rfl
@[simp] theorem State.fallingBranch_cntRun : s.fallingBranch.cntRun = false := by
  unfold State.fallingBranch State.publish; cases s.ovfPend <;> rfl
@[simp] theorem State.fallingBranch_ovfPend : s.fallingBranch.ovfPend = false := by
  unfold State.fallingBranch State.publish; cases s.ovfPend <;> rfl
@[simp] theorem State.fallingBranch_ovfCnt : s.fallingBranch.ovfCnt = if s.ovfPend then (ovfNext s.ovfCnt s.ovfSat).1 else s.ovfCnt := by
  unfold State.fallingBranch State.publish; cases s.ovfPend <;> rfl
@[simp] theorem State.fallingBranch_ovfSat : s.fallingBranch.ovfSat = if s.ovfPend then (ovfNext s.ovfCnt s.ovfSat).2 else s.ovfSat := by
  unfold State.fallingBranch State.publish; cases s.ovfPend <;> rfl
@[simp] theorem State.fallingBranch_mode : s.fallingBranch.mode = s.mode := by
  unfold State.fallingBranch State.publish; cases s.ovfPend <;> rfl
@[simp] theorem State.fallingBranch_edgeIE : s.fallingBranch.edgeIE = s.edgeIE := by
  unfold State.fallingBranch State.publish; cases s.ovfPend <;> rfl
@[simp] theorem State.fallingBranch_ovfIE : s.fallingBranch.ovfIE = s.ovfIE := by
  unfold State.fallingBranch State.publish; cases s.ovfPend <;> rfl
@[simp] theorem State.fallingBranch_edgePend : s.fallingBranch.edgePend = s.edgePend := by
  unfold State.fallingBranch State.publish; cases s.ovfPend <;> rfl
@[simp] theorem State.fallingBranch_level : s.fallingBranch.level = s.level := by
  unfold State.fallingBranch State.publish; cases s.ovfPend <;> rfl
theorem State.fallingBranch_sample : s.fallingBranch.sample = composite s.fallingBranch.ovfCnt s.hwCnt s.fallingBranch.ovfSat := by
  unfold State.fallingBranch State.publish; cases s.ovfPend <;> rfl
@[simp] theorem State.fallingBranch_initDone : s.fallingBranch.initDone = s.initDone := by
  unfold State.fallingBranch State.publish; cases s.ovfPend <;> rfl
@[simp] theorem State.fallingBranch_faultOvfOverrun : s.fallingBranch.faultOvfOverrun = s.faultOvfOverrun := by
  unfold State.fallingBranch State.publish; cases s.ovfPend <;> rfl
@[simp] theorem State.fallingBranch_faultInitTwice : s.fallingBranch.faultInitTwice = s.faultInitTwice := by
  unfold State.fallingBranch State.publish; cases s.ovfPend <;> rfl
@[simp] theorem State.fallingBranch_hazGlitch : s.fallingBranch.hazGlitch = s.hazGlitch := by
  unfold State.fallingBranch State.publish; cases s.ovfPend <;> rfl
@[simp] theorem State.fallingBranch_config : s.fallingBranch.config = s.config := by
  unfold State.fallingBranch State.publish; cases s.ovfPend <;> rfl
@[simp] theorem State.fallingBranch_out : s.fallingBranch.out = s.out := by
  unfold State.fallingBranch State.publish; cases s.ovfPend <;> rfl
@[simp] theorem State.fallingBranch_trace : s.fallingBranch.trace = s.trace := by
  unfold State.fallingBranch State.publish; cases s.ovfPend <;> rfl

/-! firstInit -/

@[simp] theorem State.firstInit_hwCnt : s.firstInit.hwCnt = s.hwCnt := rfl
@[simp] theorem State.firstInit_cntRun : s.firstInit.cntRun = true := rfl
@[simp] theorem State.firstInit_ovfPend : s.firstInit.ovfPend = s.ovfPend := rfl
@[simp] theorem State.firstInit_ovfCnt : s.firstInit.ovfCnt = s.ovfCnt := rfl
@[simp] theorem State.firstInit_ovfSat : s.firstInit.ovfSat = s.ovfSat := rfl
@[simp] theorem State.firstInit_mode : s.firstInit.mode = .risingOnly := rfl
@[simp] theorem State.firstInit_edgeIE : s.firstInit.edgeIE = true := rfl
@[simp] theorem State.firstInit_ovfIE : s.firstInit.ovfIE = true := rfl
@[simp] theorem State.firstInit_edgePend : s.firstInit.edgePend = s.edgePend := rfl
@[simp] theorem State.firstInit_level : s.firstInit.level = s.level := rfl
@[simp] theorem State.firstInit_sample : s.firstInit.sample = s.sample := rfl
@[simp] theorem State.firstInit_initDone : s.firstInit.initDone = true := rfl
@[simp] theorem State.firstInit_faultOvfOverrun : s.firstInit.faultOvfOverrun = s.faultOvfOverrun := rfl
@[simp] theorem State.firstInit_faultInitTwice : s.firstInit.faultInitTwice = s.faultInitTwice := rfl
@[simp] theorem State.firstInit_hazGlitch : s.firstInit.hazGlitch = s.hazGlitch := rfl
@[simp] theorem State.firstInit_config : s.firstInit.config = s.config := rfl
@[simp] theorem State.firstInit_out : s.firstInit.out = s.out := rfl
@[simp] theorem State.firstInit_trace : s.firstInit.trace = s.trace := rfl

/-! placeWord -/

@[simp] theorem State.placeWord_hwCnt : (s.placeWord w).hwCnt = s.hwCnt := rfl
@[simp] theorem State.placeWord_cntRun : (s.placeWord w).cntRun = s.cntRun := rfl
@[simp] theorem State.placeWord_ovfPend : (s.placeWord w).ovfPend = s.ovfPend := rfl
@[simp] theorem State.placeWord_ovfCnt : (s.placeWord w).ovfCnt = s.ovfCnt := rfl
@[simp] theorem State.placeWord_ovfSat : (s.placeWord w).ovfSat = s.ovfSat := rfl
@[simp] theorem State.placeWord_mode : (s.placeWord w).mode = s.mode := rfl
@[simp] theorem State.placeWord_edgeIE : (s.placeWord w).edgeIE = s.edgeIE := rfl
@[simp] theorem State.placeWord_ovfIE : (s.placeWord w).ovfIE = s.ovfIE := rfl
@[simp] theorem State.placeWord_edgePend : (s.placeWord w).edgePend = s.edgePend := rfl
@[simp] theorem State.placeWord_level : (s.placeWord w).level = s.level := rfl
@[simp] theorem State.placeWord_sample : (s.placeWord w).sample = s.sample := rfl
@[simp] theorem State.placeWord_initDone : (s.placeWord w).initDone = s.initDone := rfl
@[simp] theorem State.placeWord_faultOvfOverrun : (s.placeWord w).faultOvfOverrun = s.faultOvfOverrun := rfl
@[simp] theorem State.placeWord_faultInitTwice : (s.placeWord w).faultInitTwice = s.faultInitTwice := rfl
@[simp] theorem State.placeWord_hazGlitch : (s.placeWord w).hazGlitch = s.hazGlitch := rfl
@[simp] theorem State.placeWord_config : (s.placeWord w).config = s.config := rfl
@[simp] theorem State.placeWord_out : (s.placeWord w).out = s.out := rfl
@[simp] theorem State.placeWord_trace : (s.placeWord w).trace = w :: s.trace := rfl

end Sys2Proof.Machine
end

