-- ==== Sys2Proof/Laws/Ops.lean ====
section
/-! SUPPORT. What each shared operation can do, said once: the overflow increment, the composite, the scaler, the
interrupt service, and the fields of an event word. -/

namespace Sys2Proof.Machine

open Sys2Proof

/-! The overflow increment (R103) -/

@[simp] theorem ovfNext_of_full (sat : Bool) : ovfNext 255#8 sat = (255#8, true) := rfl

theorem ovfNext_of_not_full {c : Byte} (h : c ≠ 0xFF) (sat : Bool) : ovfNext c sat = (c + 1, sat) := if_neg h

theorem ovfNext_cases (c : Byte) (sat : Bool) :
    (c = 0xFF ∧ ovfNext c sat = (0xFF, true)) ∨ (c.toNat < 255 ∧ ovfNext c sat = (c + 1, sat)) := by
  by_cases h : c = 0xFF
  · exact .inl ⟨h, by rw [h]; rfl⟩
  · refine .inr ⟨?_, ovfNext_of_not_full h sat⟩
    have hc : c.toNat ≠ 255 := fun hn => h (BitVec.eq_of_toNat_eq hn)
    have := c.isLt
    omega

/-! The composite (R102) -/

@[simp] theorem composite_of_saturated (c h : Byte) : composite c h true = 0xFFFF := rfl

@[simp] theorem composite_of_unsaturated (c h : Byte) : composite c h false = c ++ h := rfl

/-! The scaler (R150 to R152) -/

theorem wellFormed_iff (c : Config) : c.wellFormed = true ↔ c.ticksLow.toNat < c.ticksHigh.toNat := by
  simp [Config.wellFormed]

theorem clamp_bounds {c : Config} (h : c.wellFormed = true) (t : Word) :
    c.ticksLow.toNat ≤ clamp c t ∧ clamp c t ≤ c.ticksHigh.toNat := by
  rw [wellFormed_iff] at h
  unfold clamp
  omega

/-- The truncation to 16 bits changes nothing: the quotient is at most DUTY_MAX. -/
theorem scale_quotient_le {c : Config} (h : c.wellFormed = true) (t : Word) :
    (clamp c t - c.ticksLow.toNat) * c.dutyMax.toNat / (c.ticksHigh.toNat - c.ticksLow.toNat) ≤ c.dutyMax.toNat := by
  have hb := clamp_bounds h t
  rw [wellFormed_iff] at h
  refine Nat.div_le_of_le_mul (Nat.mul_le_mul_right _ ?_)
  omega

/-! The interrupt service (R205, R208, R209) -/

theorem service_eq_next_iff {src : Source} {handler : State → State} {s t : State} :
    service src handler s = .next t ↔ s.requested src = true ∧ t = handler (s.enterService src) := by
  unfold service State.leaveService
  cases s.requested src <;> simp [@eq_comm _ t]

theorem service_eq_fault_iff {src : Source} {handler : State → State} {s : State} {f : Fault} :
    service src handler s = .fault f ↔ s.requested src = false ∧ f = .notEnabled src := by
  unfold service
  cases s.requested src <;> simp [@eq_comm _ f]

@[simp] theorem service_ne_refused (src : Source) (handler : State → State) (s : State) (r : Refusal) :
    service src handler s ≠ .refused r := by
  unfold service
  split <;> simp

/-! The fields of an event word (R70) -/

@[simp] theorem opField_eventWord (op : BitVec 4) (data : Word) : opField (eventWord op data) = op := by
  unfold opField eventWord
  exact BitVec.extractLsb'_append_eq_left

@[simp] theorem dataField_eventWord (op : BitVec 4) (data : Word) : dataField (eventWord op data) = data := by
  unfold dataField eventWord
  exact BitVec.extractLsb'_append_eq_right

end Sys2Proof.Machine
end

