-- ==== Sys2Proof/Laws/Exec.lean ====
section
/-! SUPPORT. What an event, a step and a run can do when they answer a next state: one inversion lemma for each
meaning, one for `exec`, one for `step`, and the induction over a run, packaged once. -/

namespace Sys2Proof.Machine

open Sys2Proof

variable {e : Instr} {es : List Instr} {s t : State}

theorem execInit_next (h : execInit s = .next t) :
    (s.initDone = true ∧ t = s.raiseIf true .initTwice) ∨ (s.initDone = false ∧ t = s.firstInit) := by
  cases hd : s.initDone <;> simp_all [execInit]

theorem execTick_next (h : execTick s = .next t) :
    (s.cntRun = true ∧ t = s.advance) ∨ (s.cntRun = false ∧ t = s) := by
  cases hr : s.cntRun <;> simp_all [execTick]

theorem execPin_next {l : Bool} (h : execPin l s = .next t) :
    (l ≠ s.level ∧ t = s.lineChange l) ∨ (l = s.level ∧ t = s) := by
  by_cases hl : l = s.level <;> simp_all [execPin, State.transition]

theorem execEdgeSvc_next (h : execEdgeSvc s = .next t) :
    s.edgePend = true ∧ s.edgeIE = true ∧
      ((s.level = true ∧ t = (s.enterService .edge).risingBranch) ∨
       (s.level = false ∧ t = (s.enterService .edge).fallingBranch)) := by
  obtain ⟨hr, rfl⟩ := service_eq_next_iff.mp h
  have hr' : s.edgePend = true ∧ s.edgeIE = true := by simpa [State.requested] using hr
  refine ⟨hr'.1, hr'.2, ?_⟩
  cases hl : s.level <;> simp [State.edgeHandler, hl]

theorem execOvfSvc_next (h : execOvfSvc s = .next t) :
    s.ovfPend = true ∧ s.ovfIE = true ∧ t = (s.enterService .overflow).ovfInc := by
  obtain ⟨hr, rfl⟩ := service_eq_next_iff.mp h
  have hr' : s.ovfPend = true ∧ s.ovfIE = true := by simpa [State.requested] using hr
  exact ⟨hr'.1, hr'.2, rfl⟩

theorem execRds_next (h : execRds s = .next t) : t = s.emit .rd s.sample := by
  simpa [execRds, State.snapshot, @eq_comm _ t] using h

theorem execScale_next {v : Word} (h : execScale v s = .next t) :
    s.config.wellFormed = true ∧ t = s.emit .duty (scale s.config v) := by
  cases hc : s.config.wellFormed <;> simp_all [execScale]

/-- Everything an event can do when it answers a next state. -/
theorem exec_next_cases (h : exec e s = .next t) :
    (e = .init ∧ ((s.initDone = true ∧ t = s.raiseIf true .initTwice) ∨ (s.initDone = false ∧ t = s.firstInit))) ∨
    (e = .tick ∧ ((s.cntRun = true ∧ t = s.advance) ∨ (s.cntRun = false ∧ t = s))) ∨
    (∃ l, e = .pin l ∧ ((l ≠ s.level ∧ t = s.lineChange l) ∨ (l = s.level ∧ t = s))) ∨
    (e = .edgeSvc ∧ s.edgePend = true ∧ s.edgeIE = true ∧
      ((s.level = true ∧ t = (s.enterService .edge).risingBranch) ∨
       (s.level = false ∧ t = (s.enterService .edge).fallingBranch))) ∨
    (e = .ovfSvc ∧ s.ovfPend = true ∧ s.ovfIE = true ∧ t = (s.enterService .overflow).ovfInc) ∨
    (e = .rds ∧ t = s.emit .rd s.sample) ∨
    (∃ v, e = .scale v ∧ s.config.wellFormed = true ∧ t = s.emit .duty (scale s.config v)) := by
  cases e with
  | init => exact .inl ⟨rfl, execInit_next h⟩
  | tick => exact .inr (.inl ⟨rfl, execTick_next h⟩)
  | pin l => exact .inr (.inr (.inl ⟨l, rfl, execPin_next h⟩))
  | edgeSvc => exact .inr (.inr (.inr (.inl ⟨rfl, execEdgeSvc_next h⟩)))
  | ovfSvc => exact .inr (.inr (.inr (.inr (.inl ⟨rfl, execOvfSvc_next h⟩))))
  | rds => exact .inr (.inr (.inr (.inr (.inr (.inl ⟨rfl, execRds_next h⟩)))))
  | scale v => exact .inr (.inr (.inr (.inr (.inr (.inr ⟨v, rfl, execScale_next h⟩)))))

/-- Everything a step can do when it answers a next state: one legal word is taken, under a legal configuration. -/
theorem step_next_cases (h : step s = .next t) :
    s.config.wellFormed = true ∧ ∃ w rest i, s.trace = w :: rest ∧ decode w = .event i ∧
      exec i { s with trace := rest } = .next t := by
  unfold step at h
  split at h
  · next hc =>
    refine ⟨hc, ?_⟩
    unfold State.nextWord at h
    cases ht : s.trace with
    | nil => simp [ht] at h
    | cons w rest =>
      simp only [ht, runWord] at h
      cases hd : decode w with
      | event i => exact ⟨w, rest, i, rfl, hd, by simpa [hd] using h⟩
      | illegal c => simp [hd] at h
  · cases h

@[simp] theorem runEvents_nil (s : State) : runEvents [] s = .next s := rfl

theorem runEvents_cons_next : runEvents (e :: es) s = .next t ↔ ∃ u, exec e s = .next u ∧ runEvents es u = .next t := by
  rw [runEvents]
  cases exec e s <;> simp

theorem runEvents_append_next {es fs : List Instr} {s t : State} :
    runEvents (es ++ fs) s = .next t ↔ ∃ u, runEvents es s = .next u ∧ runEvents fs u = .next t := by
  induction es generalizing s with
  | nil => simp
  | cons e es ih =>
    simp only [List.cons_append, runEvents_cons_next, ih]
    exact ⟨fun ⟨v, hv, u, hu, ht⟩ => ⟨u, ⟨v, hv, hu⟩, ht⟩, fun ⟨u, ⟨v, hv, hu⟩, ht⟩ => ⟨v, hv, u, hu, ht⟩⟩

/-- What holds at the start of a run and is kept by each of its events holds at its end. -/
theorem runEvents_induction {P : State → Prop}
    (keeps : ∀ e ∈ es, ∀ s t, P s → exec e s = .next t → P t) (hs : P s) (h : runEvents es s = .next t) : P t := by
  induction es generalizing s with
  | nil =>
    obtain rfl : s = t := by simpa using h
    exact hs
  | cons e es ih =>
    obtain ⟨u, hu, ht⟩ := runEvents_cons_next.mp h
    exact ih (fun f hf => keeps f (List.mem_cons_of_mem _ hf)) (keeps e List.mem_cons_self _ _ hs hu) ht

end Sys2Proof.Machine
end

