-- ==== Sys2Proof/Laws/PerInstr.lean ====
section
/-! SUPPORT. The family TableRow: what holds of every instruction as syntax, one lemma per constructor. -/

namespace Sys2Proof.Laws.TableRow

open Sys2Proof

/-- The instruction is well formed and some row of the opcode table has its mnemonic and its word (R71). -/
def Statement (i : Instr) : Prop :=
  i.wellFormed = true ∧ ∃ r ∈ opcodeTable, r.mnemonic = i.mnemonic ∧ encode i &&& r.mask = r.word

theorem init : Statement .init := ⟨rfl, ⟨"INIT", 0x10000, 0xFFFFF⟩, by decide, rfl, by decide⟩

theorem tick : Statement .tick := ⟨rfl, ⟨"TICK", 0x20000, 0xFFFFF⟩, by decide, rfl, by decide⟩

theorem pin (level : Bool) : Statement (.pin level) :=
  ⟨rfl, ⟨"PIN", 0x30000, 0xFFFFE⟩, by decide, rfl, by cases level <;> decide⟩

theorem edgeSvc : Statement .edgeSvc := ⟨rfl, ⟨"EDGE_SVC", 0x40000, 0xFFFFF⟩, by decide, rfl, by decide⟩

theorem ovfSvc : Statement .ovfSvc := ⟨rfl, ⟨"OVF_SVC", 0x50000, 0xFFFFF⟩, by decide, rfl, by decide⟩

theorem rds : Statement .rds := ⟨rfl, ⟨"RDS", 0x60000, 0xFFFFF⟩, by decide, rfl, by decide⟩

theorem scale (ticks : Word) : Statement (.scale ticks) := by
  refine ⟨rfl, ⟨"SCALE", 0x70000, 0xF0000⟩, by decide, rfl, ?_⟩
  have hlow : ∀ i < 16, (0xF0000#20).getLsbD i = false ∧ (0x70000#20).getLsbD i = false := by decide
  have hhigh : ∀ i < 4, ((7#4).getLsbD i && (0xF0000#20).getLsbD (i + 16)) = (0x70000#20).getLsbD (i + 16) := by decide
  refine BitVec.eq_of_getLsbD_eq fun i hi => ?_
  simp only [encode, eventWord, BitVec.getLsbD_and, BitVec.getLsbD_append]
  by_cases h : i < 16
  · have := hlow i h
    simp_all
  · have := hhigh (i - 16) (by omega)
    rw [Nat.sub_add_cancel (by omega)] at this
    rw [if_neg h]
    exact this

end Sys2Proof.Laws.TableRow
end

