-- ==== Sys2Proof/Machine/Ports.lean ====
section
/-! DEFINITION. The signal-level reading of the events, 30_encoding.md R78, for a clocked circuit. "The event model of
rules R70 to R77 is normative and this view is not": no step reads this file (log 21). -/

namespace Sys2Proof.Machine

open Sys2Proof

/-- One input signal of R78 as it stands in one clock cycle. -/
inductive InSignal where
  | rcIn    (level : Bool)
  | tickEn  (asserted : Bool)
  | initReq (asserted : Bool)
  | rdReq   (asserted : Bool)
  | scaleIn (ticks : Word)
  deriving DecidableEq, Repr

/-- The output signals of R78 that show the state. -/
structure OutSignals where
  edgeIrq : Bool
  ovfIrq  : Bool
  deriving DecidableEq, Repr

/-- The event that an input signal carries in a cycle (R78): "a change of level is PIN L", "each asserted cycle is one
TICK". A cycle takes at most one event. -/
def InSignal.event (s : State) : InSignal → Option Instr
  | .rcIn l        => if s.transition l then some (.pin l) else none
  | .tickEn true   => some .tick
  | .tickEn false  => none
  | .initReq true  => some .init
  | .initReq false => none
  | .rdReq true    => some .rds
  | .rdReq false   => none
  | .scaleIn t     => some (.scale t)

/-- `edge_irq` is "EDGE_PEND and EDGE_IE" and `ovf_irq` is "OVF_PEND and OVF_IE" (R78). -/
def State.outSignals (s : State) : OutSignals := ⟨s.requested .edge, s.requested .overflow⟩

/-- `rd_data`, the result of RDS in this state (R78). -/
def State.rdData (s : State) : Word := s.snapshot

/-- `duty_out`, the result of SCALE T (R78). -/
def State.dutyOut (s : State) (t : Word) : Word := scale s.config t

end Sys2Proof.Machine
end

