-- ==== Sys2Proof/Tests/Slice0.lean ====
section
/-! SUPPORT. Tests on the spec's own vectors (95_test_vectors.md, cited by their names), smoke tests of
well-formedness, and a witness for the hypotheses of each statement. -/

namespace Sys2Proof.Tests

open Sys2Proof Sys2Proof.Machine

/-- The next state of an outcome, if it is one. -/
def next? : Host.Outcome State Fault Refusal → Option State
  | .next s    => some s
  | .fault _   => none
  | .refused _ => none

/-- One event, then one value of the state after it. -/
def after {α : Type} (e : Instr) (s : State) (f : State → α) : Option α := (next? (exec e s)).map f

/-- Reset, then INIT (V-I1). -/
def ready : State := State.reset.firstInit

/-- A capture in progress: the line high and served. -/
def capturing : State := { ready with mode := .anyEdge, level := true }

/-- The falling transition of a capture, not yet served. -/
def falling : State := { capturing with level := false, edgePend := true }

/-! Well-formedness: each check refuses an ill-formed term -/

theorem test_wf_config_refuses_high_below_low : (Config.mk 4000 2000 255).wellFormed = false := by decide

theorem test_wf_config_refuses_equal_bounds : (Config.mk 3000 3000 255).wellFormed = false := by decide

theorem test_wf_config_takes_the_example : (Config.mk 2000 4000 255).wellFormed = true := by decide

theorem test_wf_pin_refuses_level_2 : (SrcEvent.pin 2).wellFormed = false := by decide

theorem test_wf_scale_refuses_70000 : (SrcEvent.scale 70000).wellFormed = false := by decide

theorem test_wf_tick_times_refuses_0 : (SrcEvent.tickTimes 0).wellFormed = false := by decide

theorem test_wf_tick_times_refuses_above_limit : (SrcEvent.tickTimes 1048577).wellFormed = false := by decide

/-! Decoding: words written out bit by bit from R71 and R72 -/

theorem test_decode_init : decode 0b0001_0000000000000000#20 = .event .init := by decide

theorem test_decode_tick : decode 0b0010_0000000000000000#20 = .event .tick := by decide

theorem test_decode_pin_low : decode 0b0011_0000000000000000#20 = .event (.pin false) := by decide

theorem test_decode_pin_high : decode 0b0011_0000000000000001#20 = .event (.pin true) := by decide

theorem test_decode_edge_svc : decode 0b0100_0000000000000000#20 = .event .edgeSvc := by decide

theorem test_decode_ovf_svc : decode 0b0101_0000000000000000#20 = .event .ovfSvc := by decide

theorem test_decode_rds : decode 0b0110_0000000000000000#20 = .event .rds := by decide

theorem test_decode_scale_3000 : decode 0b0111_0000101110111000#20 = .event (.scale 3000) := by decide

theorem test_decode_reserved_opcodes :
    decode 0x00000 = .illegal .opcode ∧ decode 0x80000 = .illegal .opcode ∧ decode 0xFFFFF = .illegal .opcode := by
  decide

theorem test_decode_reserved_data :
    decode 0x10001 = .illegal .data ∧ decode 0x30002 = .illegal .data ∧ decode 0x38001 = .illegal .data ∧
      decode 0x48000 = .illegal .data ∧ decode 0x60100 = .illegal .data := by decide

theorem test_table_word : decodeTableWord 24 0x30001 = some (.pin true) ∧ decodeTableWord 24 0x130001 = none := by decide

/-! The assembler (R76, R77) -/

theorem test_assemble_pin : assembleLine ['P', 'I', 'N', ' ', '1'] = .words [0x30001] := by decide

theorem test_assemble_scale_with_comment :
    assembleLine ['S', 'C', 'A', 'L', 'E', ' ', '#', '3', '0', '0', '0', ' ', ';', 'x'] = .words [0x70BB8] := by decide

theorem test_assemble_hex : assembleLine ['S', 'C', 'A', 'L', 'E', ' ', '#', '0', 'x', 'F', 'f'] = .words [0x700FF] := by
  decide

theorem test_assemble_pin_2_is_an_error : assembleLine ['P', 'I', 'N', ' ', '2'] = .error .outOfRange := by decide

theorem test_assemble_program :
    assemble [['R', 'I', 'S', 'E'], ['T', 'I', 'C', 'K', '*', '2'], [';']] =
      .words [0x30001, 0x40000, 0x20000, 0x20000] := by decide

/-! Pure functions (V-F1 to V-F7, S1 to S3 and the other configurations of §2.4) -/

theorem test_ovf_next :
    ovfNext 0x05 false = (0x06, false) ∧ ovfNext 0xFF false = (0xFF, true) ∧ ovfNext 0xFF true = (0xFF, true) := by decide

theorem test_composite :
    composite 0x01 0x2C false = 0x012C ∧ composite 0xFF 0xFF false = 0xFFFF ∧ composite 0x12 0x34 true = 0xFFFF := by
  decide

theorem test_scale_example :
    scale ⟨2000, 4000, 255⟩ 3000 = 127 ∧ scale ⟨2000, 4000, 255⟩ 1500 = 0 ∧ scale ⟨2000, 4000, 255⟩ 5000 = 255 ∧
      scale ⟨2000, 4000, 255⟩ 2008 = 1 := by decide

theorem test_scale_other_configurations :
    scale ⟨0, 65535, 65535⟩ 65534 = 65534 ∧ scale ⟨0, 1, 65535⟩ 1 = 65535 ∧ scale ⟨1000, 2001, 100⟩ 1500 = 49 := by decide

/-! One event each -/

/-- V-I1. -/
theorem test_init_first :
    after .init State.reset (fun t => (t.edgeIE, t.ovfIE, t.mode, t.cntRun, t.initDone)) =
      some (true, true, .risingOnly, true, true) := by decide

/-- V-I4. -/
theorem test_init_twice : after .init capturing (fun t => (t.mode, t.faultInitTwice)) = some (.anyEdge, true) := by decide

/-- V-C3, with V-C2's neighbour. -/
theorem test_tick_wraps :
    after .tick { ready with hwCnt := 0xFF } (fun t => (t.hwCnt, t.ovfPend, t.faultOvfOverrun)) =
      some (0x00, true, false) := by decide

/-- V-C4. -/
theorem test_tick_overrun :
    after .tick { capturing with hwCnt := 0xFF, ovfPend := true } (fun t => (t.hwCnt, t.ovfPend, t.faultOvfOverrun)) =
      some (0x00, true, true) := by decide

/-- V-C9. -/
theorem test_ovf_svc_saturates :
    after .ovfSvc { ready with ovfPend := true, ovfCnt := 0xFF } (fun t => (t.ovfCnt, t.ovfSat, t.ovfPend)) =
      some (0xFF, true, false) := by decide

/-- V-C11. -/
theorem test_ovf_svc_not_enabled : after .ovfSvc ready State.ovfCnt = none := by decide

/-- V-E2. -/
theorem test_pin_falling_in_rising_only :
    after (.pin false) { ready with level := true } (fun t => (t.level, t.edgePend)) = some (false, false) := by decide

/-- V-E7. -/
theorem test_pin_glitch :
    after (.pin false) { ready with level := true, edgePend := true } (fun t => (t.level, t.edgePend, t.hazGlitch)) =
      some (false, true, true) := by decide

/-- V-E8. -/
theorem test_edge_svc_rising :
    after .edgeSvc { ready with hwCnt := 0x9C, ovfCnt := 0x03, ovfPend := true, level := true, edgePend := true }
      (fun t => (t.mode, t.hwCnt, t.ovfCnt, t.ovfPend, t.edgePend, t.cntRun)) =
        some (.anyEdge, 0x00, 0x00, false, false, true) := by decide

/-- V-E11. -/
theorem test_edge_svc_falling_counts_the_pending_overflow :
    after .edgeSvc { falling with ovfCnt := 0x01, ovfPend := true }
      (fun t => (t.ovfCnt, t.ovfPend, t.sample, t.cntRun, t.edgePend)) = some (0x02, false, 0x0200, false, false) := by
  decide

/-- V-L3. -/
theorem test_rds_shows_the_previous_pulse :
    after .rds { capturing with sample := 0x012C, ovfCnt := 0x05, hwCnt := 0x10 } State.out = some [⟨.rd, 0x012C⟩] := by
  decide

/-- S1. -/
theorem test_scale_appends : after (.scale 3000) State.reset State.out = some [⟨.duty, 127⟩] := by decide

/-- A change of `rc_in` is PIN, a held level is no event, and a pending enabled edge raises `edge_irq` (R78). -/
theorem test_signal_view :
    (InSignal.rcIn true).event ready = some (.pin true) ∧ (InSignal.rcIn false).event ready = none ∧
      falling.outSignals = ⟨true, false⟩ := by decide

/-! The step -/

theorem test_step_runs_the_placed_word :
    (next? (step (State.reset.withFetchWord 24 0x10000))).map State.initDone = some true := by decide

theorem test_step_stops_at_the_end : step State.reset = .fault .traceEnded := rfl

theorem test_step_refuses_an_illegal_word :
    step (State.reset.withFetchWord 24 0x10001) = .refused (.illegalEvent 0x10001 .data) := rfl

theorem test_step_refuses_a_bad_configuration :
    step { State.reset with config := ⟨4000, 2000, 255⟩ } = .refused (.badConfig ⟨4000, 2000, 255⟩) := rfl

/-! Witnesses: a state and operands that meet a statement's hypotheses together. A run is given by its end state, found
by evaluation. -/

/-- The end of a run that is known to have one. -/
def endOf (es : List Instr) (s : State) : State := (next? (runEvents es s)).getD s

theorem runEvents_endOf {es : List Instr} {s : State} (h : (next? (runEvents es s)).isSome = true) :
    runEvents es s = .next (endOf es s) := by
  unfold endOf
  cases hr : runEvents es s <;> simp_all [next?]

theorem exec_endOf {e : Instr} {s : State} (h : (next? (runEvents [e] s)).isSome = true) :
    exec e s = .next (endOf [e] s) := by
  obtain ⟨u, hu, ht⟩ := runEvents_cons_next.mp (runEvents_endOf h)
  rw [hu]
  simpa using ht

theorem witness_EncodeThenDecodeGivesTheEvent : (Instr.scale 0xFFFF).wellFormed = true := by decide

theorem witness_DecoderIsTotalAndUnambiguous :
    decode 0x70000 = .event (.scale 0) ∧ decode 0x7FFFF = .event (.scale 0xFFFF) := by decide

theorem witness_OpcodeMapIsTheTable :
    (6 : BitVec 4) ∈ [(1 : BitVec 4), 2, 4, 5, 6] ∧ (0x8000 : Word) ≠ 0 ∧ 2 ≤ (0x0002 : Word).toNat ∧
      8 ≤ (8 : BitVec 4).toNat := by decide

theorem witness_TableRowsSelectTheDecodedEvent : (⟨"PIN", 0x30000, 0xFFFFE⟩ : OpcodeRow) ∈ opcodeTable := by decide

/-- The bounds of each range, and the first number past it. -/
theorem witness_AssemblerEventsExpandToTheirWords :
    1 ≤ 2 ^ 20 ∧ 65535 ≤ 65535 ∧ 1 ≤ 1 ∧ 65535 < 65536 ∧ 1 < 2 := by decide

theorem witness_AssemblerEventsExpandToTheirWords_text :
    ';' ∉ "RDS ".toList ∧ ([7] : List (Fin 10)) ≠ [] ∧ ([(15, true), (15, false), (0, true), (10, true)] : List (Fin 16 × Bool)).length ≤ 4 ∧
      4 < ([(0, false), (0, false), (0, false), (0, false), (1, false)] : List (Fin 16 × Bool)).length ∧ 'a'.toNat ≤ 't'.toNat ∧ 't'.toNat ≤ 'z'.toNat := by decide

theorem witness_StepRunsTheDecodedEvent :
    ∃ s : State, s.config.wellFormed = true ∧ s.trace = [0x20000] ∧ decode 0x20000 = .event .tick :=
  ⟨ready.withFetchWord 24 0x20000, by decide⟩

theorem witness_StepStopsWhenTheTraceIsOver :
    State.reset.config.wellFormed = true ∧ State.reset.trace = [] := by decide

theorem witness_RefusalHoldsForTheWholeRun_config :
    ∃ s : State, s.config.ticksHigh.toNat ≤ s.config.ticksLow.toNat :=
  ⟨{ State.reset with config := ⟨3000, 3000, 255⟩ }, by decide⟩

theorem witness_RefusalHoldsForTheWholeRun_word :
    ∃ s u : State, s.config.wellFormed = true ∧ s.trace = [Instr.tick].map encode ++ [0x00000] ∧
      decode 0x00000 = .illegal .opcode ∧ runEvents [.tick] { s with trace := [0x00000] } = .next u :=
  ⟨{ ready with trace := [0x20000, 0x00000] }, _, by decide, by decide, by decide, runEvents_endOf (by decide)⟩

theorem witness_WordRunIsTheEventRun :
    ∃ s : State, s.config.wellFormed = true ∧ s.trace = [Instr.tick, .rds].map encode ++ [0x00000] :=
  ⟨{ ready with trace := [0x20000, 0x60000, 0x00000] }, by decide⟩

theorem witness_EventsAreEnabledExactlyAsStated :
    ∃ s : State, s.config.wellFormed = true ∧ ¬ (s.edgePend = true ∧ s.edgeIE = true) ∧
      ¬ (s.ovfPend = true ∧ s.ovfIE = true) ∧ s.trace = [0x40000] :=
  ⟨ready.withFetchWord 24 0x40000, by decide⟩

theorem witness_EventsAreEnabledExactlyAsStated_overflow :
    ∃ s : State, s.config.wellFormed = true ∧ ¬ (s.ovfPend = true ∧ s.ovfIE = true) ∧ s.trace = [0x50000] :=
  ⟨ready.withFetchWord 24 0x50000, by decide⟩

theorem witness_EventsAreEnabledExactlyAsStated_illegal :
    ∃ s : State, s.config.wellFormed = true ∧ s.trace = [0x30002] ∧ decode 0x30002 = .illegal .data :=
  ⟨ready.withFetchWord 24 0x30002, by decide⟩

theorem witness_BlockIsInertBeforeInit :
    ∃ (p : ResetParams) (t : State), Instr.init ∉ [Instr.pin true, .tick, .rds] ∧
      runEvents [.pin true, .tick, .rds] (State.resetWith p) = .next t ∧ t.config.wellFormed = true :=
  ⟨.named, _, by decide, runEvents_endOf (by decide), by decide⟩

theorem witness_InitSetsTheStartingStateOnce :
    State.reset.initDone = false ∧ ready.initDone = true ∧ BlockInv State.reset := by decide

theorem witness_TickAdvancesTheCounter_stopped : State.reset.cntRun = false := by decide

theorem witness_TickAdvancesTheCounter_counts :
    ∃ s : State, s.cntRun = true ∧ s.hwCnt.toNat < 255 ∧ s.hwCnt.toNat = 254 :=
  ⟨{ ready with hwCnt := 0xFE }, by decide⟩

theorem witness_TickAdvancesTheCounter_overrun :
    ∃ s : State, s.cntRun = true ∧ s.hwCnt = 0xFF ∧ s.ovfPend = true ∧ s.mode = .anyEdge :=
  ⟨{ capturing with hwCnt := 0xFF, ovfPend := true }, by decide⟩

theorem witness_TickAdvancesTheCounter_wrap :
    ∃ s : State, s.cntRun = true ∧ s.hwCnt = 0xFF ∧ (s.ovfPend = false ∨ s.mode = .risingOnly) :=
  ⟨{ ready with hwCnt := 0xFF, ovfPend := true }, by decide⟩

theorem witness_OvfSvcCountsThePendingOverflow_counts :
    ∃ s : State, s.ovfPend = true ∧ s.ovfIE = true ∧ s.ovfCnt.toNat < 255 ∧ s.ovfCnt = 0xFE :=
  ⟨{ ready with ovfPend := true, ovfCnt := 0xFE }, by decide⟩

theorem witness_OvfSvcCountsThePendingOverflow_full :
    ∃ s : State, s.ovfPend = true ∧ s.ovfIE = true ∧ s.ovfCnt = 0xFF :=
  ⟨{ ready with ovfPend := true, ovfCnt := 0xFF }, by decide⟩

theorem witness_OvfSvcCountsThePendingOverflow_stops : State.reset.ovfPend = false ∨ State.reset.ovfIE = false := by decide

theorem witness_PinDetectsTransitions_none : false = ready.level := by decide

theorem witness_PinDetectsTransitions_request :
    true ≠ ready.level ∧ ready.edgePend = false ∧ ready.edgeIE = true ∧ (ready.mode = .anyEdge ∨ true = true) := by decide

theorem witness_PinDetectsTransitions_no_request :
    ∃ s : State, false ≠ s.level ∧ s.edgePend = false ∧
      (s.edgeIE = false ∨ (s.mode = .risingOnly ∧ (false : Bool) = false)) :=
  ⟨{ ready with level := true }, by decide⟩

theorem witness_PinDetectsTransitions_glitch : true ≠ falling.level ∧ falling.edgePend = true := by decide

theorem witness_EdgeSvcHighStartsThePulse :
    ∃ s : State, s.edgePend = true ∧ s.edgeIE = true ∧ s.level = true :=
  ⟨{ ready with edgePend := true, level := true }, by decide⟩

theorem witness_EdgeSvcLowPublishesThePulse_plain :
    falling.edgePend = true ∧ falling.edgeIE = true ∧ falling.level = false ∧ falling.ovfPend = false := by decide

theorem witness_EdgeSvcLowPublishesThePulse_counts :
    ∃ s : State, s.edgePend = true ∧ s.edgeIE = true ∧ s.level = false ∧ s.ovfPend = true ∧ s.ovfCnt.toNat < 255 ∧
      s.ovfCnt = 0xFE :=
  ⟨{ falling with ovfPend := true, ovfCnt := 0xFE }, by decide⟩

theorem witness_EdgeSvcLowPublishesThePulse_full :
    ∃ s : State, s.edgePend = true ∧ s.edgeIE = true ∧ s.level = false ∧ s.ovfPend = true ∧ s.ovfCnt = 0xFF :=
  ⟨{ falling with ovfPend := true, ovfCnt := 0xFF }, by decide⟩

theorem witness_EdgeSvcTakesTheBranchOfTheLevel :
    (ready.edgePend = false ∨ ready.edgeIE = false) ∧ falling.edgePend = true ∧ falling.edgeIE = true := by decide

theorem witness_StopsHaveTheModelsNames :
    (ready.edgePend = false ∨ ready.edgeIE = false) ∧ (ready.ovfPend = false ∨ ready.ovfIE = false) := by decide

theorem witness_ScaleAppendsTheDutyValue :
    State.reset.config.ticksLow.toNat < State.reset.config.ticksHigh.toNat := by decide

theorem witness_StopsHaveTheModelsNames_config :
    ∃ s : State, s.config.ticksHigh.toNat ≤ s.config.ticksLow.toNat :=
  ⟨{ State.reset with config := ⟨3000, 3000, 255⟩ }, by decide⟩

theorem witness_StopsHaveTheModelsNames_ranges : 2 ^ 20 < 2 ^ 20 + 1 ∧ 65535 < 65536 ∧ 1 < 2 := by decide

theorem witness_scaler_statements :
    (Config.mk 0 65535 65535).wellFormed = true ∧ (0 : Word).toNat ≤ (65535 : Word).toNat := by decide

theorem witness_ScalerMeetsItsBounds :
    (Config.mk 2000 4000 255).wellFormed = true ∧ (2000 : Word).toNat ≤ (Config.mk 2000 4000 255).ticksLow.toNat ∧
      (Config.mk 2000 4000 255).ticksHigh.toNat ≤ (4000 : Word).toNat := by decide

theorem witness_ScalerMidpointIsHalf_even :
    (Config.mk 2000 4000 255).wellFormed = true ∧ (3000 : Word).toNat = (2000 + 4000) / 2 ∧ (4000 - 2000) % 2 = 0 := by
  decide

theorem witness_ScalerMidpointIsHalf_odd :
    (Config.mk 1000 2001 100).wellFormed = true ∧ (1500 : Word).toNat = (1000 + 2001) / 2 ∧ (2001 - 1000) % 2 = 1 := by
  decide

theorem witness_DutyOfAReadSampleIgnoresLaterEvents :
    ∃ t : State, runEvents (.rds :: [.edgeSvc] ++ [.scale falling.sample]) falling = .next t :=
  ⟨_, runEvents_endOf (by decide)⟩

theorem witness_EventsWriteOnlyWhatTheyMay :
    ∃ t : State, exec .tick ready = .next t ∧ mayWrite .tick .sample = false :=
  ⟨_, exec_endOf (by decide), by decide⟩

theorem witness_EventsSeeOnlyWhatTheyMay :
    ∃ s₁ s₂ t₁ : State, s₁.config = s₂.config ∧ (∀ x : Element, mayRead .rds x = true → s₁.read x = s₂.read x) ∧
      exec .rds s₁ = .next t₁ ∧ s₁ ≠ s₂ :=
  ⟨ready, capturing, _, by decide, by intro x; cases x <;> decide, exec_endOf (by decide), by decide⟩

theorem witness_StepKeepsConfigurationAndHistory : ∃ t : State, step (ready.withFetchWord 24 0x60000) = .next t :=
  ⟨_, rfl⟩

theorem witness_OnlyAFallingServiceWritesTheSample :
    ∃ s t : State, exec .edgeSvc s = .next t ∧ t.sample ≠ s.sample :=
  ⟨{ falling with hwCnt := 0x0A }, _, exec_endOf (by decide), by decide⟩

theorem witness_RdsReadsTheWholeSample :
    ∃ s t : State, runEvents [.edgeSvc, .tick] s = .next t ∧ published [.edgeSvc, .tick] s = [] :=
  ⟨{ capturing with edgePend := true, sample := 0x012C }, _, runEvents_endOf (by decide), by decide⟩

theorem witness_RdsReadsTheWholeSample_reset :
    ∃ t : State, runEvents [.init, .tick] (State.resetWith .named) = .next t ∧
      published [.init, .tick] (State.resetWith .named) = [] :=
  ⟨_, runEvents_endOf (by decide), by decide⟩

theorem witness_RdsReturnsTheLastPublishedValue :
    ∃ s t : State, runEvents [.edgeSvc, .rds] s = .next t ∧ published [.edgeSvc, .rds] s = [0x000A] :=
  ⟨{ falling with hwCnt := 0x0A }, _, runEvents_endOf (by decide), by decide⟩

theorem witness_NoReadIsTorn :
    ∃ (p : ResetParams) (t : State), runEvents [.rds] (State.resetWith p) = .next t ∧ ⟨.rd, p.sampleReset⟩ ∈ t.out :=
  ⟨.named, _, runEvents_endOf (by decide), by decide⟩

theorem witness_EveryStepKeepsTheInvariant :
    ∃ s t : State, BlockInv s ∧ step s = .next t :=
  ⟨ready.withFetchWord 24 0x20000, _, by decide, rfl⟩

theorem witness_ModeNeverReturnsToRisingOnly_change :
    ∃ s t : State, exec .edgeSvc s = .next t ∧ t.mode ≠ s.mode :=
  ⟨{ ready with edgePend := true, level := true }, _, exec_endOf (by decide), by decide⟩

theorem witness_ModeNeverReturnsToRisingOnly_rising :
    ∃ s t : State, s.level = true ∧ exec .edgeSvc s = .next t :=
  ⟨{ ready with edgePend := true, level := true }, _, by decide, exec_endOf (by decide)⟩

theorem witness_ModeNeverReturnsToRisingOnly_run :
    ∃ t : State, BlockInv capturing ∧ capturing.mode = .anyEdge ∧
      runEvents [.init, .pin false, .edgeSvc] capturing = .next t :=
  ⟨_, by decide, by decide, runEvents_endOf (by decide)⟩

theorem witness_StickyBitsAndEnablesStaySet :
    ∃ s t : State, runEvents [.tick] s = .next t ∧ s.faultOvfOverrun = true ∧ s.faultInitTwice = true ∧
      s.hazGlitch = true ∧ s.edgeIE = true ∧ s.ovfIE = true ∧ s.initDone = true :=
  ⟨{ capturing with faultOvfOverrun := true, faultInitTwice := true, hazGlitch := true }, _,
    runEvents_endOf (by decide), by decide⟩

theorem witness_RequestsWaitForTheirService :
    ∃ s t : State, Instr.edgeSvc ∉ [Instr.tick] ∧ Instr.ovfSvc ∉ [Instr.tick] ∧ runEvents [.tick] s = .next t ∧
      s.requested .edge = true ∧ s.requested .overflow = true :=
  ⟨{ falling with ovfPend := true }, _, by decide, by decide, runEvents_endOf (by decide), by decide⟩

theorem witness_ServiceOrderDoesNotMatter :
    ∃ s : State, s.requested .edge = true ∧ s.requested .overflow = true :=
  ⟨{ falling with ovfPend := true }, by decide⟩

theorem witness_FirstServiceIsRising :
    ∃ (p : ResetParams) (t u : State), Instr.edgeSvc ∉ [Instr.init, .pin true] ∧
      runEvents [.init, .pin true] (State.resetWith p) = .next t ∧ t.glitchFree ∧ exec .edgeSvc t = .next u :=
  ⟨.named, _, _, by decide, runEvents_endOf (by decide), by decide, exec_endOf (by decide)⟩

theorem witness_FirstServiceIsRising_ignored :
    ∃ s t : State, s.mode = .risingOnly ∧ s.edgePend = false ∧ exec (.pin false) s = .next t ∧ s.level = true :=
  ⟨{ ready with level := true }, _, by decide, by decide, exec_endOf (by decide), by decide⟩

/-- A rising service, one tick, the falling transition and its service. -/
theorem witness_SampleIsThePulseWidth :
    ∃ s u v w : State, BlockInv s ∧ s.level = true ∧ exec .edgeSvc s = .next u ∧
      Instr.edgeSvc ∉ [Instr.tick, .pin false] ∧ runEvents [.tick, .pin false] u = .next v ∧ v.level = false ∧
      exec .edgeSvc v = .next w ∧ w.faultOvfOverrun = false ∧ w.glitchFree ∧ w.sample = 0x0001 :=
  ⟨{ ready with edgePend := true, level := true }, _, _, _, by decide, by decide, exec_endOf (by decide), by decide,
    runEvents_endOf (by decide), by decide, exec_endOf (by decide), by decide, by decide, by decide⟩

theorem witness_BranchesAlternateWithoutGlitch :
    ∃ s u v w : State, BlockInv s ∧ exec .edgeSvc s = .next u ∧ Instr.edgeSvc ∉ [Instr.pin false] ∧
      runEvents [.pin false] u = .next v ∧ exec .edgeSvc v = .next w ∧ w.glitchFree ∧ s.glitchFree :=
  ⟨{ ready with edgePend := true, level := true }, _, _, _, by decide, exec_endOf (by decide), by decide,
    runEvents_endOf (by decide), exec_endOf (by decide), by decide, by decide⟩

theorem witness_BranchesAlternateWithoutGlitch_request :
    ∃ u v : State, ready.edgePend = false ∧ exec (.pin true) ready = .next u ∧ u.edgePend = true ∧
      Instr.edgeSvc ∉ [Instr.tick] ∧ runEvents [.tick] u = .next v ∧ v.glitchFree :=
  ⟨_, _, by decide, exec_endOf (by decide), by decide, by decide, runEvents_endOf (by decide), by decide⟩

theorem witness_BranchesAlternateWithoutGlitch_falling :
    ∃ t : State, BlockInv falling ∧ exec .edgeSvc falling = .next t ∧ falling.glitchFree ∧ falling.level = false :=
  ⟨_, by decide, exec_endOf (by decide), by decide, by decide⟩

theorem witness_LatencyEntersTheMeasurement :
    ∃ t : State,
      (∀ e ∈ [Instr.tick] ++ [Instr.tick, Instr.tick] ++ [Instr.tick], e ≠ .edgeSvc ∧ ∀ l, e ≠ .pin l) ∧
      BlockInv ready ∧ ready.level = false ∧
      runEvents (.pin true :: [.tick] ++ .edgeSvc :: [.tick, .tick] ++ .pin false :: [.tick] ++ [.edgeSvc]) ready =
        .next t ∧ t.faultOvfOverrun = false ∧ t.glitchFree ∧ t.sample = 0x0003 :=
  ⟨_, by simp, by decide, by decide, runEvents_endOf (by decide), by decide, by decide, by decide⟩

theorem witness_OnlyTicksMoveTheVirtualCount :
    ∃ s t : State, BlockInv s ∧ s.captureActive = true ∧ s.glitchFree ∧ exec .tick s = .next t ∧
      t.faultOvfOverrun = false ∧ t.ovfSat = false :=
  ⟨{ capturing with hwCnt := 0xFF }, _, by decide, by decide, by decide, exec_endOf (by decide), by decide, by decide⟩

theorem witness_UnservicedOverflowFaultsAtTheNextWrap :
    ∃ s t : State, BlockInv s ∧ s.captureActive = true ∧ s.ovfPend = true ∧ Instr.edgeSvc ∉ [Instr.tick] ∧
      Instr.ovfSvc ∉ [Instr.tick] ∧ runEvents [.tick] s = .next t ∧ t.faultOvfOverrun = true :=
  ⟨{ capturing with hwCnt := 0xFF, ovfPend := true }, _, by decide, by decide, by decide, by decide, by decide,
    runEvents_endOf (by decide), by decide⟩

theorem witness_CounterDrawsLeaveNoTrace :
    ∃ (p : ResetParams) (t₁ t₂ : State), Instr.edgeSvc ∈ [Instr.init, .pin true, .edgeSvc] ∧
      runEvents [.init, .pin true, .edgeSvc] (State.resetWith p) = .next t₁ ∧
      runEvents [.init, .pin true, .edgeSvc]
        (State.resetWith { p with hwCnt0 := 0xFF, ovfCnt0 := 0x5A, ovfSat0 := true }) = .next t₂ ∧ t₁.glitchFree :=
  ⟨.named, _, _, by decide, runEvents_endOf (by decide), runEvents_endOf (by decide), by decide⟩

end Sys2Proof.Tests
end

/-! The stops of the two services and of the scaler, and the assembler's range error: each condition once, then O23. -/

namespace Sys2Proof.Machine

open Sys2Proof

/-! When a service, a configuration or an assembler event is refused -/

theorem requested_edge_eq_false_iff (s : State) :
    s.requested .edge = false ↔ s.edgePend = false ∨ s.edgeIE = false :=
  Bool.and_eq_false_iff

theorem requested_overflow_eq_false_iff (s : State) :
    s.requested .overflow = false ↔ s.ovfPend = false ∨ s.ovfIE = false :=
  Bool.and_eq_false_iff

theorem wellFormed_eq_false_iff (c : Config) : c.wellFormed = false ↔ c.ticksHigh.toNat ≤ c.ticksLow.toNat := by
  rw [← Bool.not_eq_true, wellFormed_iff, Nat.not_lt]

theorem tickTimes_wellFormed_eq_false_iff (n : Nat) :
    (SrcEvent.tickTimes n).wellFormed = false ↔ n = 0 ∨ 2 ^ 20 < n := by
  simp only [SrcEvent.wellFormed, decide_eq_false_iff_not]
  omega

theorem scale_wellFormed_eq_false_iff (n : Nat) : (SrcEvent.scale n).wellFormed = false ↔ 65535 < n := by
  simp only [SrcEvent.wellFormed, decide_eq_false_iff_not, Nat.not_le]

theorem pin_wellFormed_eq_false_iff (n : Nat) : (SrcEvent.pin n).wellFormed = false ↔ 1 < n := by
  simp only [SrcEvent.wellFormed, decide_eq_false_iff_not, Nat.not_le]

/-! What the refused event answers -/

theorem exec_edgeSvc_eq_service (s : State) : exec .edgeSvc s = service .edge State.edgeHandler s := rfl

theorem exec_ovfSvc_eq_service (s : State) : exec .ovfSvc s = service .overflow State.ovfInc s := rfl

theorem exec_edgeSvc_of_not_requested {s : State} (h : s.requested .edge = false) :
    exec .edgeSvc s = .fault (.notEnabled .edge) := by
  rw [exec_edgeSvc_eq_service]
  exact service_eq_fault_iff.mpr ⟨h, rfl⟩

theorem exec_ovfSvc_of_not_requested {s : State} (h : s.requested .overflow = false) :
    exec .ovfSvc s = .fault (.notEnabled .overflow) := by
  rw [exec_ovfSvc_eq_service]
  exact service_eq_fault_iff.mpr ⟨h, rfl⟩

theorem exec_scale_of_not_wellFormed {s : State} (h : s.config.wellFormed = false) (t : Word) :
    exec (.scale t) s = .refused (.badConfig s.config) :=
  if_neg (Bool.eq_false_iff.mp h)

theorem assembleEvent_of_not_wellFormed {e : SrcEvent} (h : e.wellFormed = false) :
    assembleEvent e = .error .outOfRange :=
  if_neg (Bool.eq_false_iff.mp h)

/-- Settles O23: each hypothesis is the failure of the one check that the event makes, and the check's failure has the
stop's name. -/
theorem stopsHaveTheModelsNames : Obligations.StopsHaveTheModelsNames := by
  refine ⟨fun s h => ?edge, fun s h => ?overflow, fun s t h => ?config, fun n h => ?tickTimes, fun n h => ?scale,
    fun n h => ?pin⟩
  case edge => exact exec_edgeSvc_of_not_requested ((requested_edge_eq_false_iff s).mpr h)
  case overflow => exact exec_ovfSvc_of_not_requested ((requested_overflow_eq_false_iff s).mpr h)
  case config => exact exec_scale_of_not_wellFormed ((wellFormed_eq_false_iff s.config).mpr h) t
  case tickTimes => exact assembleEvent_of_not_wellFormed ((tickTimes_wellFormed_eq_false_iff n).mpr h)
  case scale => exact assembleEvent_of_not_wellFormed ((scale_wellFormed_eq_false_iff n).mpr h)
  case pin => exact assembleEvent_of_not_wellFormed ((pin_wellFormed_eq_false_iff n).mpr h)

end Sys2Proof.Machine

/-! What an event does to the state (10_state.md R36 to R41): the effect of every enabled event as one relation, the
invariant of the block under each effect, the access rights of R37, the virtual count of R41 and the control points. -/

namespace Sys2Proof.Machine

open Sys2Proof

variable {e : Instr} {s t s₁ s₂ t₁ t₂ : State}

/-! The effects of the events -/

/-- `EventEffect s e t`: event `e` is enabled in `s` and leaves `t`. One constructor per case of a rule; it is `exec`
answering a next state, by `exec_eq_next_iff`. -/
inductive EventEffect (s : State) : Instr → State → Prop
  | initTwice (done : s.initDone = true) : EventEffect s .init (s.raiseIf true .initTwice)
  | firstInit (notDone : s.initDone = false) : EventEffect s .init s.firstInit
  | advance (running : s.cntRun = true) : EventEffect s .tick s.advance
  | hold (stopped : s.cntRun = false) : EventEffect s .tick s
  | lineChange {l : Bool} (moves : l ≠ s.level) : EventEffect s (.pin l) (s.lineChange l)
  | noTransition {l : Bool} (same : l = s.level) : EventEffect s (.pin l) s
  | rising (pending : s.edgePend = true) (enabled : s.edgeIE = true) (high : s.level = true) :
      EventEffect s .edgeSvc (s.enterService .edge).risingBranch
  | falling (pending : s.edgePend = true) (enabled : s.edgeIE = true) (low : s.level = false) :
      EventEffect s .edgeSvc (s.enterService .edge).fallingBranch
  | countOverflow (pending : s.ovfPend = true) (enabled : s.ovfIE = true) :
      EventEffect s .ovfSvc (s.enterService .overflow).ovfInc
  | readSample : EventEffect s .rds (s.emit .rd s.sample)
  | scaleTicks {v : Word} (legal : s.config.wellFormed = true) :
      EventEffect s (.scale v) (s.emit .duty (scale s.config v))

theorem EventEffect.of_exec (h : exec e s = .next t) : EventEffect s e t := by
  cases e with
  | init =>
    obtain ⟨done, rfl⟩ | ⟨notDone, rfl⟩ := execInit_next h
    · exact .initTwice done
    · exact .firstInit notDone
  | tick =>
    obtain ⟨running, rfl⟩ | ⟨stopped, rfl⟩ := execTick_next h
    · exact .advance running
    · exact .hold stopped
  | pin l =>
    obtain ⟨moves, rfl⟩ | ⟨same, rfl⟩ := execPin_next h
    · exact .lineChange moves
    · exact .noTransition same
  | edgeSvc =>
    obtain ⟨pending, enabled, ⟨high, rfl⟩ | ⟨low, rfl⟩⟩ := execEdgeSvc_next h
    · exact .rising pending enabled high
    · exact .falling pending enabled low
  | ovfSvc =>
    obtain ⟨pending, enabled, rfl⟩ := execOvfSvc_next h
    exact .countOverflow pending enabled
  | rds =>
    obtain rfl := execRds_next h
    exact .readSample
  | scale v =>
    obtain ⟨legal, rfl⟩ := execScale_next h
    exact .scaleTicks legal

theorem EventEffect.exec_eq (h : EventEffect s e t) : exec e s = .next t := by
  cases h with
  | initTwice done => simp [exec, execInit, done]
  | firstInit notDone => simp [exec, execInit, notDone]
  | advance running => simp [exec, execTick, running]
  | hold stopped => simp [exec, execTick, stopped]
  | lineChange moves => simp [exec, execPin, State.transition, moves]
  | noTransition same => simp [exec, execPin, State.transition, same]
  | rising pending enabled high =>
    exact service_eq_next_iff.mpr ⟨by simp [State.requested, pending, enabled], by simp [State.edgeHandler, high]⟩
  | falling pending enabled low =>
    exact service_eq_next_iff.mpr ⟨by simp [State.requested, pending, enabled], by simp [State.edgeHandler, low]⟩
  | countOverflow pending enabled =>
    exact service_eq_next_iff.mpr ⟨by simp [State.requested, pending, enabled], rfl⟩
  | readSample => rfl
  | scaleTicks legal => simp [exec, execScale, legal]

theorem exec_eq_next_iff : exec e s = .next t ↔ EventEffect s e t := ⟨.of_exec, EventEffect.exec_eq⟩

/-! The overflow increment (R103) -/

theorem ovfNext_full_of_saturated {c : Byte} {sat : Bool} (full : sat = true → c = 0xFF)
    (h : (ovfNext c sat).2 = true) : (ovfNext c sat).1 = 0xFF := by
  obtain ⟨-, hn⟩ | ⟨hc, hn⟩ := ovfNext_cases c sat <;> rw [hn] at h ⊢
  · rw [full h] at hc
    exact absurd hc (by decide)

theorem ovfNext_toNat_of_not_saturated {c : Byte} {sat : Bool} (h : (ovfNext c sat).2 = false) :
    (ovfNext c sat).1.toNat = c.toNat + 1 := by
  obtain ⟨-, hn⟩ | ⟨hc, hn⟩ := ovfNext_cases c sat <;> rw [hn] at h ⊢
  · cases h
  · rw [BitVec.toNat_add, Nat.mod_eq_of_lt (by simp; omega)]
    rfl

/-! The invariant -/

theorem InertBeforeInit.initDone_of_anyEdge (inert : InertBeforeInit s) (hm : s.mode = .anyEdge) :
    s.initDone = true := by
  by_contra hd
  have hr := (inert (Bool.eq_false_iff.mpr hd)).1
  simp [hm] at hr

theorem InertBeforeInit.initDone_of_cntRun (inert : InertBeforeInit s) (hr : s.cntRun = true) :
    s.initDone = true := by
  by_contra hd
  obtain ⟨-, stopped, -⟩ := inert (Bool.eq_false_iff.mpr hd)
  simp [hr] at stopped

/-- No part of the invariant reads the trace. -/
theorem BlockInv.withTrace (h : BlockInv s) (ws : List EventWord) : BlockInv { s with trace := ws } := h

theorem BlockInv.emit (h : BlockInv s) (p : Port) (v : Word) : BlockInv (s.emit p v) := h

theorem BlockInv.initTwice (h : BlockInv s) (done : s.initDone = true) : BlockInv (s.raiseIf true .initTwice) := by
  obtain ⟨-, enables, stopped, full, overrun, requests, capture⟩ := h
  refine ⟨?inert, enables, stopped, full, ?overrun, ?requests, ?capture⟩
  case inert => simp [InertBeforeInit, done]
  case overrun => simpa [OverrunOnlyAfterRising] using overrun
  case requests => simpa [RisingOnlyRequests] using requests
  case capture => simpa [CaptureFollowsLine] using capture

theorem BlockInv.firstInit (h : BlockInv s) (notDone : s.initDone = false) : BlockInv s.firstInit := by
  obtain ⟨inert, -, -, -, overrun, -, -⟩ := h
  obtain ⟨hmode, -, hpend, -, -⟩ := inert notDone
  refine ⟨?inert, ⟨rfl, rfl⟩, ?stopped, ?full, ?overrun, ?requests, ?capture⟩
  case inert => simp [InertBeforeInit]
  case stopped => simp [StoppedHasNoOverflow]
  case full => simp [SaturatedIsFull]
  case overrun => simpa [OverrunOnlyAfterRising, hmode] using overrun
  case requests => simp [RisingOnlyRequests, hpend]
  case capture => simp [CaptureFollowsLine]

/-- A wrap raises the overrun in AnyEdge mode alone; nothing else of the invariant reads what a running counter
changes. -/
theorem BlockInv.advance (h : BlockInv s) (running : s.cntRun = true) : BlockInv s.advance := by
  obtain ⟨inert, enables, -, full, overrun, requests, capture⟩ := h
  have done := inert.initDone_of_cntRun running
  refine ⟨?inert, ?enables, ?stopped, ?full, ?overrun, ?requests, ?capture⟩
  case inert => simp [InertBeforeInit, done]
  case enables => simpa [EnablesFollowInit] using enables
  case stopped => simp [StoppedHasNoOverflow, running]
  case full => simpa [SaturatedIsFull] using full
  case overrun =>
    intro hf
    cases hm : s.mode with
    | anyEdge => simpa using hm
    | risingOnly =>
      have hfault : s.faultOvfOverrun = true := by simpa [State.overruns, Mode.bit, hm] using hf
      simp [overrun hfault] at hm
  case requests => simpa [RisingOnlyRequests] using requests
  case capture => simpa [CaptureFollowsLine] using capture

/-- With no glitch after it, a transition found no request pending. -/
theorem BlockInv.lineChange (h : BlockInv s) {l : Bool} (moves : l ≠ s.level) : BlockInv (s.lineChange l) := by
  obtain ⟨inert, enables, stopped, full, overrun, requests, capture⟩ := h
  refine ⟨?inert, enables, stopped, full, overrun, ?requests, ?capture⟩
  case inert =>
    intro notDone
    rw [State.lineChange_initDone] at notDone
    obtain ⟨hmode, hrun, hpend, htwice, hglitch⟩ := inert notDone
    simp [hmode, hrun, hpend, htwice, hglitch, State.qualifies, enables.1, notDone]
  case requests =>
    intro hg hmode
    simp only [State.lineChange_hazGlitch, Bool.or_eq_false_iff] at hg
    obtain ⟨-, hrun⟩ := requests hg.1 hmode
    refine ⟨?_, hrun⟩
    rw [State.lineChange_mode] at hmode
    simp [hg.2, State.qualifies, hmode, Mode.bit]
  case capture =>
    intro hg hmode
    simp only [State.lineChange_hazGlitch, Bool.or_eq_false_iff] at hg
    have follows := capture hg.1 hmode
    rw [State.lineChange_mode] at hmode
    have enabled : s.edgeIE = true := enables.1.trans (inert.initDone_of_anyEdge hmode)
    simp [follows, hg.2, State.qualifies, hmode, Mode.bit, enabled, Bool.eq_not_of_ne moves]

theorem BlockInv.rising (h : BlockInv s) (enabled : s.edgeIE = true) (high : s.level = true) :
    BlockInv (s.enterService .edge).risingBranch := by
  obtain ⟨-, enables, -⟩ := h
  have done : s.initDone = true := enables.1.symm.trans enabled
  refine ⟨?inert, ?enables, ?stopped, ?full, ?overrun, ?requests, ?capture⟩
  case inert => simp [InertBeforeInit, done]
  case enables => simpa [EnablesFollowInit] using enables
  case stopped => simp [StoppedHasNoOverflow]
  case full => simp [SaturatedIsFull]
  case overrun => simp [OverrunOnlyAfterRising]
  case requests => simp [RisingOnlyRequests]
  case capture => simp [CaptureFollowsLine, high]

/-- With no glitch in RisingOnly mode a request means a high line, so this branch is taken in AnyEdge mode there. -/
theorem BlockInv.falling (h : BlockInv s) (pending : s.edgePend = true) (enabled : s.edgeIE = true)
    (low : s.level = false) : BlockInv (s.enterService .edge).fallingBranch := by
  obtain ⟨-, enables, -, full, overrun, requests, -⟩ := h
  have done : s.initDone = true := enables.1.symm.trans enabled
  refine ⟨?inert, ?enables, ?stopped, ?full, ?overrun, ?requests, ?capture⟩
  case inert => simp [InertBeforeInit, done]
  case enables => simpa [EnablesFollowInit] using enables
  case stopped => simp [StoppedHasNoOverflow]
  case full =>
    cases hp : s.ovfPend with
    | false => simpa [SaturatedIsFull, hp] using full
    | true => simpa [SaturatedIsFull, hp] using fun hm => ovfNext_full_of_saturated (full hm)
  case overrun => simpa [OverrunOnlyAfterRising] using overrun
  case requests =>
    intro hg hmode
    obtain ⟨highWhenPending, -⟩ := requests (by simpa using hg) (by simpa using hmode)
    simp [highWhenPending pending] at low
  case capture => simp [CaptureFollowsLine, low]

theorem BlockInv.countOverflow (h : BlockInv s) : BlockInv (s.enterService .overflow).ovfInc := by
  obtain ⟨inert, enables, -, full, overrun, requests, capture⟩ := h
  exact ⟨inert, enables, fun _ => rfl, fun hm => ovfNext_full_of_saturated (full hm), overrun, requests, capture⟩

theorem BlockInv.exec_next (hs : BlockInv s) (h : exec e s = .next t) : BlockInv t := by
  cases EventEffect.of_exec h with
  | initTwice done => exact hs.initTwice done
  | firstInit notDone => exact hs.firstInit notDone
  | advance running => exact hs.advance running
  | hold | noTransition => exact hs
  | lineChange moves => exact hs.lineChange moves
  | rising _ enabled high => exact hs.rising enabled high
  | falling pending enabled low => exact hs.falling pending enabled low
  | countOverflow => exact hs.countOverflow
  | readSample | scaleTicks => exact hs.emit _ _

/-- Settles O39: a step is its event in the state without the word, and each effect keeps the invariant. -/
theorem everyStepKeepsTheInvariant : Obligations.EveryStepKeepsTheInvariant := by
  intro s t hs h
  obtain ⟨-, w, rest, i, -, -, hexec⟩ := step_next_cases h
  exact (hs.withTrace rest).exec_next hexec

/-! What every event leaves, and what it appends (R39, R59) -/

theorem exec_next_config (h : exec e s = .next t) : t.config = s.config := by
  cases EventEffect.of_exec h <;> simp

theorem exec_next_trace (h : exec e s = .next t) : t.trace = s.trace := by
  cases EventEffect.of_exec h <;> simp

theorem exec_next_out (h : exec e s = .next t) : t.out = s.out ++ outputOf e s := by
  cases EventEffect.of_exec h <;> simp [outputOf]

theorem outputOf_withTrace (e : Instr) (s : State) (ws : List EventWord) :
    outputOf e { s with trace := ws } = outputOf e s := by
  cases e <;> rfl

/-- Settles O33: the step's inversion gives the word and its event, and the event keeps the trace that is left. -/
theorem stepKeepsConfigurationAndHistory : Obligations.StepKeepsConfigurationAndHistory := by
  intro s t h
  obtain ⟨-, w, rest, i, htrace, hdecode, hexec⟩ := step_next_cases h
  have hrest := exec_next_trace hexec
  have hconfig := exec_next_config hexec
  have hout := exec_next_out hexec
  rw [outputOf_withTrace] at hout
  exact ⟨w, i, hdecode, hrest ▸ htrace, hconfig, hout⟩

/-! The W entries of R37 -/

/-- Settles O31: each effect leaves the fields outside its row of the table, one field law for each cell. -/
theorem eventsWriteOnlyWhatTheyMay : Obligations.EventsWriteOnlyWhatTheyMay := by
  intro e s t h x hx
  cases EventEffect.of_exec h with
  | hold | noTransition => rfl
  | initTwice | firstInit | advance | lineChange | rising | falling | countOverflow | readSample | scaleTicks =>
    cases x <;> simp_all [mayWrite, State.read]

/-! The R entries of R37 -/

/-- Two states agree on every element that an event may read (R37). -/
abbrev AgreeOnReads (e : Instr) (s₁ s₂ : State) : Prop :=
  ∀ x : Element, mayRead e x = true → s₁.read x = s₂.read x

/-- From `s₁` to `t₁` and from `s₂` to `t₂`, each element is written with one value or kept in both. -/
abbrev WrittenAlike (s₁ s₂ t₁ t₂ : State) : Prop :=
  ∀ x : Element, t₁.read x = t₂.read x ∨ (t₁.read x = s₁.read x ∧ t₂.read x = s₂.read x)

theorem bool_toNat_injective : Function.Injective Bool.toNat :=
  Function.LeftInverse.injective Bool.ofNat_toNat

theorem mode_bit_toNat_injective : Function.Injective fun m : Mode => m.bit.toNat := by
  intro m n h
  cases m <;> cases n <;> simp_all [Mode.bit]

/-- A sticky bit raised under one condition: set in both states, or kept in both. -/
theorem raised_alike (b₁ b₂ c : Bool) :
    (b₁ || c).toNat = (b₂ || c).toNat ∨ ((b₁ || c).toNat = b₁.toNat ∧ (b₂ || c).toNat = b₂.toNat) := by
  cases c <;> simp

theorem WrittenAlike.kept : WrittenAlike s₁ s₂ s₁ s₂ := fun _ => .inr ⟨rfl, rfl⟩

theorem WrittenAlike.emit (p : Port) (v₁ v₂ : Word) : WrittenAlike s₁ s₂ (s₁.emit p v₁) (s₂.emit p v₂) :=
  .kept

theorem WrittenAlike.initTwice :
    WrittenAlike s₁ s₂ (s₁.raiseIf true .initTwice) (s₂.raiseIf true .initTwice) := by
  intro x
  cases x <;> simp [State.read]

theorem WrittenAlike.firstInit : WrittenAlike s₁ s₂ s₁.firstInit s₂.firstInit := by
  intro x
  cases x <;> simp [State.read]

theorem WrittenAlike.advance (hcnt : s₁.hwCnt = s₂.hwCnt) (hpend : s₁.ovfPend = s₂.ovfPend)
    (hmode : s₁.mode = s₂.mode) : WrittenAlike s₁ s₂ s₁.advance s₂.advance := by
  have hwrap : s₁.atWrap = s₂.atWrap := by simp only [State.atWrap, hcnt]
  have hover : s₁.overruns = s₂.overruns := by simp only [State.overruns, hpend, hmode]
  intro x
  cases x
  case faultOvfOverrun =>
    simpa [State.read, hwrap, hover] using
      raised_alike s₁.faultOvfOverrun s₂.faultOvfOverrun (s₂.atWrap && s₂.overruns)
  all_goals simp [State.read, hcnt, hpend, hwrap]

theorem WrittenAlike.lineChange (hmode : s₁.mode = s₂.mode) (hie : s₁.edgeIE = s₂.edgeIE)
    (hpend : s₁.edgePend = s₂.edgePend) (l : Bool) :
    WrittenAlike s₁ s₂ (s₁.lineChange l) (s₂.lineChange l) := by
  have hqual : s₁.qualifies l = s₂.qualifies l := by simp only [State.qualifies, hie, hmode]
  intro x
  cases x
  case hazGlitch => simpa [State.read, hpend] using raised_alike s₁.hazGlitch s₂.hazGlitch s₂.edgePend
  all_goals simp [State.read, hpend, hqual]

theorem WrittenAlike.rising :
    WrittenAlike s₁ s₂ (s₁.enterService .edge).risingBranch (s₂.enterService .edge).risingBranch := by
  intro x
  cases x <;> simp [State.read]

theorem WrittenAlike.falling (hcnt : s₁.hwCnt = s₂.hwCnt) (hpend : s₁.ovfPend = s₂.ovfPend)
    (hovf : s₁.ovfCnt = s₂.ovfCnt) (hsat : s₁.ovfSat = s₂.ovfSat) :
    WrittenAlike s₁ s₂ (s₁.enterService .edge).fallingBranch (s₂.enterService .edge).fallingBranch := by
  intro x
  cases x
  case sample => simp [State.read, State.fallingBranch_sample, hcnt, hpend, hovf, hsat]
  all_goals simp [State.read, hpend, hovf, hsat]

theorem WrittenAlike.countOverflow (hovf : s₁.ovfCnt = s₂.ovfCnt) (hsat : s₁.ovfSat = s₂.ovfSat) :
    WrittenAlike s₁ s₂ (s₁.enterService .overflow).ovfInc (s₂.enterService .overflow).ovfInc := by
  intro x
  cases x <;> simp [State.read, hovf, hsat]

theorem outputOf_alike (hconfig : s₁.config = s₂.config) (agree : AgreeOnReads e s₁ s₂) :
    outputOf e s₁ = outputOf e s₂ := by
  cases e with
  | rds =>
    have hsample : s₁.sample = s₂.sample := BitVec.eq_of_toNat_eq (agree .sample rfl)
    simp [outputOf, hsample]
  | scale v => simp [outputOf, hconfig]
  | init | tick | pin | edgeSvc | ovfSvc => rfl

/-- An effect's condition and the values it writes depend only on what its event may read. -/
theorem EventEffect.alike (hconfig : s₁.config = s₂.config) (agree : AgreeOnReads e s₁ s₂)
    (h : EventEffect s₁ e t₁) : ∃ t₂, EventEffect s₂ e t₂ ∧ WrittenAlike s₁ s₂ t₁ t₂ := by
  cases e with
  | init =>
    have hdone : s₁.initDone = s₂.initDone := bool_toNat_injective (agree .initDone rfl)
    cases h with
    | initTwice done => exact ⟨_, .initTwice (hdone ▸ done), .initTwice⟩
    | firstInit notDone => exact ⟨_, .firstInit (hdone ▸ notDone), .firstInit⟩
  | tick =>
    have hrun : s₁.cntRun = s₂.cntRun := bool_toNat_injective (agree .cntRun rfl)
    have hcnt : s₁.hwCnt = s₂.hwCnt := BitVec.eq_of_toNat_eq (agree .hwCnt rfl)
    have hpend : s₁.ovfPend = s₂.ovfPend := bool_toNat_injective (agree .ovfPend rfl)
    have hmode : s₁.mode = s₂.mode := mode_bit_toNat_injective (agree .mode rfl)
    cases h with
    | advance running => exact ⟨_, .advance (hrun ▸ running), .advance hcnt hpend hmode⟩
    | hold stopped => exact ⟨_, .hold (hrun ▸ stopped), .kept⟩
  | pin l =>
    have hlevel : s₁.level = s₂.level := bool_toNat_injective (agree .level rfl)
    have hmode : s₁.mode = s₂.mode := mode_bit_toNat_injective (agree .mode rfl)
    have hie : s₁.edgeIE = s₂.edgeIE := bool_toNat_injective (agree .edgeIE rfl)
    have hpend : s₁.edgePend = s₂.edgePend := bool_toNat_injective (agree .edgePend rfl)
    cases h with
    | lineChange moves => exact ⟨_, .lineChange (hlevel ▸ moves), .lineChange hmode hie hpend l⟩
    | noTransition same => exact ⟨_, .noTransition (hlevel ▸ same), .kept⟩
  | edgeSvc =>
    have hlevel : s₁.level = s₂.level := bool_toNat_injective (agree .level rfl)
    have hie : s₁.edgeIE = s₂.edgeIE := bool_toNat_injective (agree .edgeIE rfl)
    have hreq : s₁.edgePend = s₂.edgePend := bool_toNat_injective (agree .edgePend rfl)
    have hcnt : s₁.hwCnt = s₂.hwCnt := BitVec.eq_of_toNat_eq (agree .hwCnt rfl)
    have hpend : s₁.ovfPend = s₂.ovfPend := bool_toNat_injective (agree .ovfPend rfl)
    have hovf : s₁.ovfCnt = s₂.ovfCnt := BitVec.eq_of_toNat_eq (agree .ovfCnt rfl)
    have hsat : s₁.ovfSat = s₂.ovfSat := bool_toNat_injective (agree .ovfSat rfl)
    cases h with
    | rising pending enabled high =>
      exact ⟨_, .rising (hreq ▸ pending) (hie ▸ enabled) (hlevel ▸ high), .rising⟩
    | falling pending enabled low =>
      exact ⟨_, .falling (hreq ▸ pending) (hie ▸ enabled) (hlevel ▸ low), .falling hcnt hpend hovf hsat⟩
  | ovfSvc =>
    have hie : s₁.ovfIE = s₂.ovfIE := bool_toNat_injective (agree .ovfIE rfl)
    have hpend : s₁.ovfPend = s₂.ovfPend := bool_toNat_injective (agree .ovfPend rfl)
    have hovf : s₁.ovfCnt = s₂.ovfCnt := BitVec.eq_of_toNat_eq (agree .ovfCnt rfl)
    have hsat : s₁.ovfSat = s₂.ovfSat := bool_toNat_injective (agree .ovfSat rfl)
    cases h with
    | countOverflow pending enabled =>
      exact ⟨_, .countOverflow (hpend ▸ pending) (hie ▸ enabled), .countOverflow hovf hsat⟩
  | rds =>
    cases h with
    | readSample => exact ⟨_, .readSample, .emit _ _ _⟩
  | scale v =>
    cases h with
    | scaleTicks legal => exact ⟨_, .scaleTicks (hconfig ▸ legal), .emit _ _ _⟩

/-- Settles O32: the second run's effect is the first's case, and its output reads only the sample or the
configuration. -/
theorem eventsSeeOnlyWhatTheyMay : Obligations.EventsSeeOnlyWhatTheyMay := by
  intro e s₁ s₂ t₁ hconfig agree h
  obtain ⟨t₂, heffect, alike⟩ := (EventEffect.of_exec h).alike hconfig agree
  refine ⟨t₂, outputOf e s₁, heffect.exec_eq, exec_next_out h, ?_, alike⟩
  rw [outputOf_alike hconfig agree, exec_next_out heffect.exec_eq]

/-! The virtual count (R41) -/

theorem captureActive_iff : s.captureActive = true ↔ s.cntRun = true ∧ s.mode = .anyEdge := by
  cases hm : s.mode <;> simp [State.captureActive, hm, Mode.bit]

@[simp] theorem tickCount_raiseIf (s : State) (c : Bool) (b : StickyBit) : (s.raiseIf c b).tickCount = s.tickCount := by
  simp [State.tickCount]

@[simp] theorem tickCount_emit (s : State) (p : Port) (v : Word) : (s.emit p v).tickCount = s.tickCount := rfl

@[simp] theorem tickCount_lineChange (s : State) (l : Bool) : (s.lineChange l).tickCount = s.tickCount := rfl

/-- At the wrap the 256 of the byte moves to OVF_PEND, which is free where no overrun is flagged. -/
theorem tickCount_advance (hmode : s.mode = .anyEdge) (noOverrun : s.advance.faultOvfOverrun = false) :
    s.advance.tickCount = s.tickCount + 1 := by
  cases hwrap : s.atWrap with
  | false =>
    have hne : s.hwCnt ≠ 0xFF := by simpa [State.atWrap] using hwrap
    have hne_toNat : s.hwCnt.toNat ≠ 255 := fun h => hne (BitVec.eq_of_toNat_eq h)
    have hlt : s.hwCnt.toNat + 1 < 256 := by omega
    have hcnt : s.advance.hwCnt.toNat = s.hwCnt.toNat + 1 := by simp [Nat.mod_eq_of_lt hlt]
    have hpend : s.advance.ovfPend = s.ovfPend := by simp [hwrap]
    rw [State.tickCount, State.tickCount, hcnt, hpend, State.advance_ovfCnt]
    omega
  | true =>
    have hfull : s.hwCnt = 0xFF := by simpa [State.atWrap] using hwrap
    have noFault : s.faultOvfOverrun = false ∧ s.ovfPend = false := by
      simpa [hwrap, State.overruns, hmode, Mode.bit] using noOverrun
    simp [State.tickCount, hwrap, hfull, noFault.2]

/-- Counting a pending overflow moves its 256 from OVF_PEND to OVF_CNT. -/
theorem tickCount_of_counted (pending : s.ovfPend = true) (cleared : t.ovfPend = false)
    (hcnt : t.hwCnt = s.hwCnt) (hovf : t.ovfCnt.toNat = s.ovfCnt.toNat + 1) : t.tickCount = s.tickCount := by
  simp only [State.tickCount, pending, cleared, hcnt, hovf, Bool.toNat_true, Bool.toNat_false]
  omega

theorem tickCount_countOverflow (pending : s.ovfPend = true)
    (unsaturated : (s.enterService .overflow).ovfInc.ovfSat = false) :
    (s.enterService .overflow).ovfInc.tickCount = s.tickCount :=
  tickCount_of_counted pending rfl rfl (ovfNext_toNat_of_not_saturated unsaturated)

theorem tickCount_falling (unsaturated : (s.enterService .edge).fallingBranch.ovfSat = false) :
    (s.enterService .edge).fallingBranch.tickCount = s.tickCount := by
  cases pending : s.ovfPend with
  | false => simp [State.tickCount, pending]
  | true =>
    have notFull : (ovfNext s.ovfCnt s.ovfSat).2 = false := by simpa [pending] using unsaturated
    exact tickCount_of_counted pending (by simp) (by simp)
      (by simpa [pending] using ovfNext_toNat_of_not_saturated notFull)

/-- Settles O48: INIT is a second one in AnyEdge mode, and a rising service would find the counter stopped. -/
theorem onlyTicksMoveTheVirtualCount : Obligations.OnlyTicksMoveTheVirtualCount := by
  intro e s t hs hactive hglitch h noOverrun unsaturated
  obtain ⟨inert, -, -, -, -, -, capture⟩ := hs
  obtain ⟨running, hmode⟩ : s.cntRun = true ∧ s.mode = .anyEdge := captureActive_iff.mp hactive
  cases EventEffect.of_exec h with
  | initTwice | noTransition | lineChange | readSample | scaleTicks => simp
  | firstInit notDone => simp [inert.initDone_of_anyEdge hmode] at notDone
  | advance => simpa using tickCount_advance hmode noOverrun
  | hold stopped => simp [running] at stopped
  | rising pending _ high => simp [capture hglitch hmode, pending, high] at running
  | falling => simpa using tickCount_falling unsaturated
  | countOverflow pending => simpa using tickCount_countOverflow pending unsaturated

/-! The step's equation and the control points -/

theorem step_eq_exec {w : EventWord} {rest : List EventWord} {i : Instr} (hconfig : s.config.wellFormed = true)
    (htrace : s.trace = w :: rest) (hdecode : decode w = .event i) : step s = exec i { s with trace := rest } := by
  simp [step, hconfig, State.nextWord, htrace, runWord, hdecode]

/-- Settles O7: the checks of a step, in their order, are the three premises. -/
theorem stepRunsTheDecodedEvent : Obligations.StepRunsTheDecodedEvent :=
  fun _ _ _ _ hconfig htrace hdecode => step_eq_exec hconfig htrace hdecode

theorem mode_bit_eq_true_iff (m : Mode) : m.bit = true ↔ m = .anyEdge := by
  cases m <;> simp [Mode.bit]

/-- Settles O37: CP0 is the two enables side by side, and the other control points are one element each. -/
theorem controlPointsHaveTheirBits : Obligations.ControlPointsHaveTheirBits := by
  intro s
  refine ⟨?_, ?_, ?_, rfl, ?_, ?_⟩
  · rw [State.cp0, BitVec.getLsbD_append]
    simp
  · rw [State.cp0, BitVec.getLsbD_append]
    simp
  · simp [State.cp1, mode_bit_eq_true_iff]
  · simp [State.cp3]
  · simp [State.cp4]

end Sys2Proof.Machine

/-! The memory of the block (20_memory.md): the trace, which no event reads or writes; SAMPLE, which has one writer; and
the bits that no run clears. -/

namespace Sys2Proof.Machine

open Sys2Proof

variable {e : Instr} {es : List Instr} {s t u : State}

/-! The decoder reads the encoder's word back (R71, R72) -/

theorem decode_encode (i : Instr) : decode (encode i) = .event i := by
  cases i with
  | init | tick | edgeSvc | ovfSvc | rds => decide
  | pin l => cases l <;> decide
  | scale v => simp [decode, encode, ticksOperand]

/-! An event does not see the words that follow it (log 1) -/

/-- The state with other words still to come. -/
def State.withTrace (s : State) (ws : List EventWord) : State := { s with trace := ws }

theorem State.withTrace_eq_self {ws : List EventWord} (h : s.trace = ws) : s.withTrace ws = s := by
  subst h
  rfl

section WithTrace

variable (s : State) (ws vs : List EventWord)

@[simp] theorem State.withTrace_withTrace : (s.withTrace ws).withTrace vs = s.withTrace vs := rfl

@[simp] theorem State.withTrace_config : (s.withTrace ws).config = s.config := rfl
@[simp] theorem State.withTrace_initDone : (s.withTrace ws).initDone = s.initDone := rfl
@[simp] theorem State.withTrace_cntRun : (s.withTrace ws).cntRun = s.cntRun := rfl
@[simp] theorem State.withTrace_level : (s.withTrace ws).level = s.level := rfl
@[simp] theorem State.withTrace_atWrap : (s.withTrace ws).atWrap = s.atWrap := rfl
@[simp] theorem State.withTrace_transition (l : Bool) : (s.withTrace ws).transition l = s.transition l := rfl
@[simp] theorem State.withTrace_requested (src : Source) : (s.withTrace ws).requested src = s.requested src := by
  cases src <;> rfl

@[simp] theorem State.withTrace_raiseIf (c : Bool) (b : StickyBit) :
    (s.withTrace ws).raiseIf c b = (s.raiseIf c b).withTrace ws := by
  cases b <;> rfl
@[simp] theorem State.withTrace_firstInit : (s.withTrace ws).firstInit = s.firstInit.withTrace ws := rfl
@[simp] theorem State.withTrace_advance : (s.withTrace ws).advance = s.advance.withTrace ws := by
  cases hwrap : s.atWrap <;> simp only [State.advance, State.withTrace_atWrap, hwrap] <;> rfl
@[simp] theorem State.withTrace_lineChange (l : Bool) :
    (s.withTrace ws).lineChange l = (s.lineChange l).withTrace ws := rfl
@[simp] theorem State.withTrace_enterService (src : Source) :
    (s.withTrace ws).enterService src = (s.enterService src).withTrace ws := by
  cases src <;> rfl
@[simp] theorem State.withTrace_risingBranch : (s.withTrace ws).risingBranch = s.risingBranch.withTrace ws := rfl
@[simp] theorem State.withTrace_fallingBranch : (s.withTrace ws).fallingBranch = s.fallingBranch.withTrace ws := rfl
@[simp] theorem State.withTrace_edgeHandler : (s.withTrace ws).edgeHandler = s.edgeHandler.withTrace ws := by
  cases hlevel : s.level <;> simp [State.edgeHandler, hlevel]
@[simp] theorem State.withTrace_ovfInc : (s.withTrace ws).ovfInc = s.ovfInc.withTrace ws := rfl
@[simp] theorem State.withTrace_emit (p : Port) (v : Word) : (s.withTrace ws).emit p v = (s.emit p v).withTrace ws := rfl

end WithTrace

/-- The outcome with other words still to come in its next state; a stop has none. -/
def outcomeWithTrace (ws : List EventWord) : Host.Outcome State Fault Refusal → Host.Outcome State Fault Refusal
  | .next t    => .next (t.withTrace ws)
  | .fault f   => .fault f
  | .refused r => .refused r

@[simp] theorem outcomeWithTrace_next (ws : List EventWord) (t : State) :
    outcomeWithTrace ws (.next t) = .next (t.withTrace ws) := rfl

@[simp] theorem outcomeWithTrace_fault (ws : List EventWord) (f : Fault) :
    outcomeWithTrace ws (.fault f) = .fault f := rfl

@[simp] theorem outcomeWithTrace_refused (ws : List EventWord) (r : Refusal) :
    outcomeWithTrace ws (.refused r) = .refused r := rfl

theorem service_withTrace {handler : State → State}
    (hhandler : ∀ (s : State) (ws : List EventWord), handler (s.withTrace ws) = (handler s).withTrace ws)
    (src : Source) (s : State) (ws : List EventWord) :
    service src handler (s.withTrace ws) = outcomeWithTrace ws (service src handler s) := by
  cases hreq : s.requested src <;> simp [service, State.leaveService, hreq, hhandler]

theorem exec_withTrace (e : Instr) (s : State) (ws : List EventWord) :
    exec e (s.withTrace ws) = outcomeWithTrace ws (exec e s) := by
  cases e with
  | init => cases hdone : s.initDone <;> simp [exec, execInit, hdone]
  | tick => cases hrun : s.cntRun <;> simp [exec, execTick, hrun]
  | pin l => cases hmoves : s.transition l <;> simp [exec, execPin, hmoves]
  | edgeSvc => exact service_withTrace State.withTrace_edgeHandler .edge s ws
  | ovfSvc => exact service_withTrace State.withTrace_ovfInc .overflow s ws
  | rds => rfl
  | scale v => cases hlegal : s.config.wellFormed <;> simp [exec, execScale, hlegal]

/-! Runs along the trace (R204, R222) -/

theorem step_of_encoded {rest : List EventWord} (hconfig : s.config.wellFormed = true)
    (htrace : s.trace = encode e :: rest) : step s = exec e (s.withTrace rest) :=
  step_eq_exec hconfig htrace (decode_encode e)

theorem runSteps_encoded (es : List Instr) (rest : List EventWord) (s : State) (hconfig : s.config.wellFormed = true)
    (htrace : s.trace = es.map encode ++ rest) : runSteps es.length s = runEvents es (s.withTrace rest) := by
  induction es generalizing s with
  | nil =>
    have hs : s.withTrace rest = s := State.withTrace_eq_self htrace
    rw [hs]
    rfl
  | cons e es ih =>
    have hstep : step s = outcomeWithTrace (es.map encode ++ rest) (exec e (s.withTrace rest)) := by
      rw [← exec_withTrace, State.withTrace_withTrace]
      exact step_of_encoded hconfig htrace
    rw [List.length_cons, runSteps, runEvents, hstep]
    cases hexec : exec e (s.withTrace rest) with
    | next u =>
      have hu : u.withTrace rest = u := State.withTrace_eq_self (exec_next_trace hexec)
      have hlegal : u.config.wellFormed = true := by rwa [exec_next_config hexec]
      simpa [hu] using ih (u.withTrace (es.map encode ++ rest)) hlegal rfl
    | fault f => rfl
    | refused r => rfl

/-- Settles O10: by induction on the events; each step is its event, which keeps the configuration and the trace. -/
theorem wordRunIsTheEventRun : Obligations.WordRunIsTheEventRun :=
  runSteps_encoded

/-! The one writer of SAMPLE (R55, R56, R126) -/

/-- Settles O34: every effect but the falling branch leaves the sample. -/
theorem onlyAFallingServiceWritesTheSample : Obligations.OnlyAFallingServiceWritesTheSample := by
  intro e s t h changed
  cases EventEffect.of_exec h with
  | falling pending enabled low =>
    refine ⟨rfl, low, pending, enabled, ?_⟩
    rw [State.fallingBranch_sample, State.enterService_hwCnt]
  | hold | noTransition => exact absurd rfl changed
  | initTwice | firstInit | advance | lineChange | rising | countOverflow | readSample | scaleTicks =>
    simp at changed

/-! Bits that no run clears (R62, R212, R213) -/

/-- The fault bits, the hazard flag, the enables and INIT_DONE are 1 in `t` where they are 1 in `s`. -/
structure BitsStaySet (s t : State) : Prop where
  ovfOverrun : s.faultOvfOverrun = true → t.faultOvfOverrun = true
  initTwice : s.faultInitTwice = true → t.faultInitTwice = true
  glitch : s.hazGlitch = true → t.hazGlitch = true
  edgeIE : s.edgeIE = true → t.edgeIE = true
  ovfIE : s.ovfIE = true → t.ovfIE = true
  initDone : s.initDone = true → t.initDone = true

theorem BitsStaySet.refl (s : State) : BitsStaySet s s := ⟨id, id, id, id, id, id⟩

theorem BitsStaySet.trans (hst : BitsStaySet s t) (htu : BitsStaySet t u) : BitsStaySet s u where
  ovfOverrun := htu.ovfOverrun ∘ hst.ovfOverrun
  initTwice := htu.initTwice ∘ hst.initTwice
  glitch := htu.glitch ∘ hst.glitch
  edgeIE := htu.edgeIE ∘ hst.edgeIE
  ovfIE := htu.ovfIE ∘ hst.ovfIE
  initDone := htu.initDone ∘ hst.initDone

/-- An effect sets such a bit, raises it under a condition, or leaves it. -/
theorem EventEffect.bitsStaySet (h : EventEffect s e t) : BitsStaySet s t := by
  cases h with
  | hold | noTransition => exact .refl s
  | initTwice | firstInit | advance | lineChange | rising | falling | countOverflow | readSample | scaleTicks =>
    constructor <;> simp +contextual

theorem runEvents_bitsStaySet (h : runEvents es s = .next t) : BitsStaySet s t :=
  runEvents_induction (fun _ _ _ _ hsu hexec => hsu.trans (EventEffect.of_exec hexec).bitsStaySet) (.refl s) h

/-- Settles O41: each event keeps the bits that are set, and so does a run. -/
theorem stickyBitsAndEnablesStaySet : Obligations.StickyBitsAndEnablesStaySet := by
  intro es s t h
  obtain ⟨overrun, twice, glitch, edgeIE, ovfIE, initDone⟩ := runEvents_bitsStaySet h
  exact ⟨overrun, twice, glitch, edgeIE, ovfIE, initDone⟩

end Sys2Proof.Machine

/-! The event word (30_encoding.md R70 to R75): which words are reserved and which are an event's, the rows of the
opcode table, how a refusal ends a run, and which events are enabled. -/

namespace Sys2Proof.Machine

open Sys2Proof

variable {e i : Instr} {es : List Instr} {s t u : State} {w : EventWord} {rest : List EventWord}
  {op : BitVec 4} {data : Word} {c : IllegalClause}

/-- Settles O1: the encoder places the fields that the decoder takes back, which `decode_encode` states for every
operand. -/
theorem encodeThenDecodeGivesTheEvent : Obligations.EncodeThenDecodeGivesTheEvent :=
  fun i _ => decode_encode i

/-! The two fields as numbers (R70) -/

theorem eventWord_fields (w : EventWord) : eventWord (opField w) (dataField w) = w :=
  BitVec.extractLsb'_append_extractLsb'

theorem toNat_opField (w : EventWord) : (opField w).toNat = w.toNat / 2 ^ 16 := by
  rw [opField, BitVec.extractLsb'_toNat, Nat.shiftRight_eq_div_pow, Nat.mod_eq_of_lt]
  have := w.isLt
  omega

theorem toNat_dataField (w : EventWord) : (dataField w).toNat = w.toNat % 2 ^ 16 :=
  BitVec.extractLsb'_toNat 0 16 w

theorem toNat_eventWord (op : BitVec 4) (data : Word) :
    (eventWord op data).toNat = op.toNat * 2 ^ 16 + data.toNat := by
  have hop := toNat_opField (eventWord op data)
  have hdata := toNat_dataField (eventWord op data)
  rw [opField_eventWord] at hop
  rw [dataField_eventWord] at hdata
  omega

/-! The reserved words (R73) -/

/-- Clause (a) of R73. -/
abbrev ReservedOpcode (op : BitVec 4) : Prop := op = 0 ∨ 8 ≤ op.toNat

/-- Clause (b) of R73: data where there is no operand, or above the level of PIN. -/
abbrev ReservedData (op : BitVec 4) (data : Word) : Prop :=
  (op ∈ [1, 2, 4, 5, 6] ∧ data ≠ 0) ∨ (op = 3 ∧ 2 ≤ data.toNat)

theorem opcode_cases : ∀ op : BitVec 4, ReservedOpcode op ∨ op ∈ [1, 2, 4, 5, 6] ∨ op = 3 ∨ op = 7 := by
  decide

theorem not_reservedOpcode_of_mem : ∀ op : BitVec 4, op ∈ [1, 2, 4, 5, 6] ∨ op = 3 → ¬ ReservedOpcode op := by
  decide

theorem ReservedData.not_reservedOpcode (h : ReservedData op data) : ¬ ReservedOpcode op :=
  not_reservedOpcode_of_mem op (h.imp And.left And.left)

theorem reservedOpcode_iff_toNat : ReservedOpcode op ↔ op.toNat = 0 ∨ 8 ≤ op.toNat := by
  simp [ReservedOpcode, BitVec.toNat_eq]

theorem reservedData_iff_toNat :
    ReservedData op data ↔
      ((op.toNat = 1 ∨ op.toNat = 2 ∨ op.toNat = 4 ∨ op.toNat = 5 ∨ op.toNat = 6) ∧ data.toNat ≠ 0) ∨
        (op.toNat = 3 ∧ data.toNat / 2 ≠ 0) := by
  have hlevel : 2 ≤ data.toNat ↔ data.toNat / 2 ≠ 0 := by omega
  simp [ReservedData, BitVec.toNat_eq, hlevel]

theorem decode_of_reservedOpcode (h : ReservedOpcode op) (data : Word) :
    decode (eventWord op data) = .illegal .opcode := by
  rw [reservedOpcode_iff_toNat] at h
  rw [decode, opField_eventWord]
  split
  case h_8 => rfl
  all_goals omega

/-- The level's data field is 0 or 1 exactly when bits [15:1] are zero. -/
theorem extractLsb'_one_eq_zero_iff (data : Word) : data.extractLsb' 1 15 = 0#15 ↔ data.toNat < 2 := by
  rw [BitVec.toNat_eq, BitVec.extractLsb'_toNat, Nat.shiftRight_eq_div_pow]
  have := data.isLt
  simp
  omega

theorem decode_of_reservedData (h : ReservedData op data) : decode (eventWord op data) = .illegal .data := by
  obtain ⟨hop, hdata⟩ | ⟨rfl, hdata⟩ := h
  · simp only [List.mem_cons, List.not_mem_nil, or_false] at hop
    obtain rfl | rfl | rfl | rfl | rfl := hop <;> simpa [decode, withoutOperand] using hdata
  · have hbits : data.extractLsb' 1 15 ≠ 0#15 := mt (extractLsb'_one_eq_zero_iff data).mp (Nat.not_lt.mpr hdata)
    simp [decode, hbits]

/-- A word with no reserved field is the word of an event (R74). -/
theorem exists_encode_eq_of_not_reserved (hop : ¬ ReservedOpcode op) (hdata : ¬ ReservedData op data) :
    ∃ i, encode i = eventWord op data := by
  simp only [ReservedData, not_or, not_and, not_not, not_le] at hdata
  obtain ⟨hzero, hlevel⟩ := hdata
  obtain hreserved | hplain | rfl | rfl := opcode_cases op
  · exact absurd hreserved hop
  · rw [hzero hplain]
    simp only [List.mem_cons, List.not_mem_nil, or_false] at hplain
    obtain rfl | rfl | rfl | rfl | rfl := hplain
    · exact ⟨.init, rfl⟩
    · exact ⟨.tick, rfl⟩
    · exact ⟨.edgeSvc, rfl⟩
    · exact ⟨.ovfSvc, rfl⟩
    · exact ⟨.rds, rfl⟩
  · obtain hlow | hhigh : data = 0 ∨ data = 1 := by
      have := hlevel rfl
      bv_omega
    · exact ⟨.pin false, by rw [hlow]; rfl⟩
    · exact ⟨.pin true, by rw [hhigh]; rfl⟩
  · exact ⟨.scale data, rfl⟩

/-- The three readings of a word, which exclude each other (R73, R74). -/
theorem decode_cases (w : EventWord) :
    (ReservedOpcode (opField w) ∧ ¬ ReservedData (opField w) (dataField w) ∧ decode w = .illegal .opcode) ∨
    (¬ ReservedOpcode (opField w) ∧ ReservedData (opField w) (dataField w) ∧ decode w = .illegal .data) ∨
    (¬ ReservedOpcode (opField w) ∧ ¬ ReservedData (opField w) (dataField w) ∧
      ∃ i, encode i = w ∧ decode w = .event i) := by
  have hfields := eventWord_fields w
  by_cases hop : ReservedOpcode (opField w)
  · have hdecode := decode_of_reservedOpcode hop (dataField w)
    rw [hfields] at hdecode
    exact .inl ⟨hop, fun hdata => hdata.not_reservedOpcode hop, hdecode⟩
  by_cases hdata : ReservedData (opField w) (dataField w)
  · have hdecode := decode_of_reservedData hdata
    rw [hfields] at hdecode
    exact .inr (.inl ⟨hop, hdata, hdecode⟩)
  · obtain ⟨i, hi⟩ := exists_encode_eq_of_not_reserved hop hdata
    rw [hfields] at hi
    exact .inr (.inr ⟨hop, hdata, i, hi, hi ▸ decode_encode i⟩)

/-- The encoder is the inverse of the decoder on the legal words. -/
theorem decode_eq_event_iff : decode w = .event i ↔ w = encode i := by
  constructor
  · intro h
    obtain ⟨-, -, hillegal⟩ | ⟨-, -, hillegal⟩ | ⟨-, -, j, hj, hevent⟩ := decode_cases w
    · simp [hillegal] at h
    · simp [hillegal] at h
    · obtain rfl : j = i := by simpa [hevent] using h
      exact hj.symm
  · rintro rfl
    exact decode_encode i

/-- Settles O2: each of the three readings decides both clauses, and two words of one event are its encoding. -/
theorem decoderIsTotalAndUnambiguous : Obligations.DecoderIsTotalAndUnambiguous := by
  refine ⟨fun w => ?_, fun w w' i hw hw' => ?_⟩
  · simp only [← toNat_opField, ← toNat_dataField, ← reservedData_iff_toNat, ← reservedOpcode_iff_toNat]
    obtain ⟨hop, hdata, h⟩ | ⟨hop, hdata, h⟩ | ⟨hop, hdata, i, -, h⟩ := decode_cases w <;> simp [hop, hdata, h]
  · rw [decode_eq_event_iff.mp hw, decode_eq_event_iff.mp hw']

/-! The opcode map (R71) -/

theorem encode_pin_eq (l : Bool) : encode (.pin l) = if l then 0x30001 else 0x30000 := by
  cases l <;> rfl

theorem encode_scale_eq (v : Word) : encode (.scale v) = 0x70000 + v.setWidth 20 := by
  apply BitVec.eq_of_toNat_eq
  have := v.isLt
  rw [encode, toNat_eventWord, BitVec.toNat_add, BitVec.toNat_setWidth]
  simp
  omega

/-- Settles O3: each row is the encoder's word read back, and the other words have a reserved field. -/
theorem opcodeMapIsTheTable : Obligations.OpcodeMapIsTheTable := by
  refine ⟨⟨decode_encode .init, rfl⟩, ⟨decode_encode .tick, rfl⟩, fun l => ⟨?pin, rfl⟩, ⟨decode_encode .edgeSvc, rfl⟩,
    ⟨decode_encode .ovfSvc, rfl⟩, ⟨decode_encode .rds, rfl⟩, fun v => ⟨?scale, rfl⟩, ?data, ?level, ?opcode⟩
  case pin => exact decode_eq_event_iff.mpr (encode_pin_eq l).symm
  case scale => exact decode_eq_event_iff.mpr (encode_scale_eq v).symm
  case data => exact fun op data hop hdata => decode_of_reservedData (.inl ⟨hop, hdata⟩)
  case level => exact fun data hdata => decode_of_reservedData (.inr ⟨rfl, hdata⟩)
  case opcode => exact fun op data hop => decode_of_reservedOpcode hop data

/-- Settles O5: a legal word is the encoding of its event, and an illegal one has a reserved field. -/
theorem specWordsDecodeAsTheVectorsSay : Obligations.SpecWordsDecodeAsTheVectorsSay :=
  ⟨decode_encode .init, decode_encode .tick, decode_encode (.pin false), decode_encode (.pin true),
    decode_encode .edgeSvc, decode_encode .ovfSvc, decode_encode .rds, decode_encode (.scale 0),
    decode_encode (.scale 3000), decode_encode (.scale 65535),
    decode_of_reservedOpcode (op := 0x0) (by decide) 0x0000, decode_of_reservedOpcode (op := 0x8) (by decide) 0x0000,
    decode_of_reservedOpcode (op := 0xF) (by decide) 0xFFFF,
    decode_of_reservedData (op := 0x1) (data := 0x0001) (by decide),
    decode_of_reservedData (op := 0x2) (data := 0x0001) (by decide),
    decode_of_reservedData (op := 0x3) (data := 0x0002) (by decide),
    decode_of_reservedData (op := 0x3) (data := 0x8001) (by decide),
    decode_of_reservedData (op := 0x4) (data := 0x8000) (by decide),
    decode_of_reservedData (op := 0x5) (data := 0x0010) (by decide),
    decode_of_reservedData (op := 0x6) (data := 0x0100) (by decide)⟩

/-! The rows of the opcode table -/

theorem tableRow_statement (i : Instr) : Laws.TableRow.Statement i := by
  cases i with
  | init => exact Laws.TableRow.init
  | tick => exact Laws.TableRow.tick
  | pin l => exact Laws.TableRow.pin l
  | edgeSvc => exact Laws.TableRow.edgeSvc
  | ovfSvc => exact Laws.TableRow.ovfSvc
  | rds => exact Laws.TableRow.rds
  | scale v => exact Laws.TableRow.scale v

theorem opcodeTable_mnemonic_injective :
    ∀ r ∈ opcodeTable, ∀ r' ∈ opcodeTable, r.mnemonic = r'.mnemonic → r = r' := by
  decide

theorem encode_matches_row {r : OpcodeRow} (hr : r ∈ opcodeTable) (hi : i.mnemonic = r.mnemonic) :
    encode i &&& r.mask = r.word := by
  obtain ⟨-, r', hr', hmnemonic, hmatch⟩ := tableRow_statement i
  obtain rfl := opcodeTable_mnemonic_injective r hr r' hr' (hi.symm.trans hmnemonic.symm)
  exact hmatch

theorem opField_and (w m : EventWord) : opField (w &&& m) = opField w &&& opField m := BitVec.extractLsb'_and

theorem dataField_and (w m : EventWord) : dataField (w &&& m) = dataField w &&& dataField m := BitVec.extractLsb'_and

/-- A mask that covers the opcode fixes it. -/
theorem opField_eq_of_and_eq {m v : EventWord} (h : w &&& m = v) (hm : opField m = BitVec.allOnes 4) :
    opField w = opField v := by
  rw [← h, opField_and, hm, BitVec.and_allOnes]

theorem eq_encode_pin_of_and_eq (h : w &&& 0xFFFFE = 0x30000) : ∃ l, w = encode (.pin l) := by
  have hop : opField w = 3 := opField_eq_of_and_eq h rfl
  have hreserved : (dataField w).extractLsb' 1 15 = 0 := by
    have hand : dataField w &&& 0xFFFE = 0 := by
      have hdata := dataField_and w 0xFFFFE
      rw [h] at hdata
      exact hdata.symm
    have hbits := congrArg (BitVec.extractLsb' 1 15) hand
    rw [BitVec.extractLsb'_and] at hbits
    exact BitVec.and_allOnes.symm.trans hbits
  have hdecode : decode w = .event (.pin (levelOperand w)) := by simp [decode, hop, hreserved]
  exact ⟨levelOperand w, decode_eq_event_iff.mp hdecode⟩

theorem eq_encode_scale_of_and_eq (h : w &&& 0xF0000 = 0x70000) : ∃ v, w = encode (.scale v) := by
  have hop : opField w = 7 := opField_eq_of_and_eq h rfl
  exact ⟨dataField w, by rw [encode, ← hop, eventWord_fields]⟩

/-- A mask of ones takes one word alone. -/
theorem eq_of_and_ones_eq {v : EventWord} (h : w &&& 0xFFFFF = v) : w = v :=
  BitVec.and_allOnes.symm.trans h

theorem exists_event_of_matches_row {r : OpcodeRow} (hr : r ∈ opcodeTable) (h : w &&& r.mask = r.word) :
    ∃ i, w = encode i ∧ i.mnemonic = r.mnemonic := by
  simp only [opcodeTable, List.mem_cons, List.not_mem_nil, or_false] at hr
  obtain rfl | rfl | rfl | rfl | rfl | rfl | rfl := hr
  · exact ⟨.init, eq_of_and_ones_eq h, rfl⟩
  · exact ⟨.tick, eq_of_and_ones_eq h, rfl⟩
  · obtain ⟨l, hw⟩ := eq_encode_pin_of_and_eq h
    exact ⟨.pin l, hw, rfl⟩
  · exact ⟨.edgeSvc, eq_of_and_ones_eq h, rfl⟩
  · exact ⟨.ovfSvc, eq_of_and_ones_eq h, rfl⟩
  · exact ⟨.rds, eq_of_and_ones_eq h, rfl⟩
  · obtain ⟨v, hw⟩ := eq_encode_scale_of_and_eq h
    exact ⟨.scale v, hw, rfl⟩

/-- Settles O4: a word of the row is an encoding of the row's event, and an encoding falls under the one row that has
its mnemonic. -/
theorem tableRowsSelectTheDecodedEvent : Obligations.TableRowsSelectTheDecodedEvent := by
  intro w r hr
  simp only [decode_eq_event_iff]
  constructor
  · exact exists_event_of_matches_row hr
  · rintro ⟨i, rfl, hi⟩
    exact encode_matches_row hr hi

/-! A refusal ends a run (R73, R201, R214) -/

theorem step_of_bad_config (h : s.config.wellFormed = false) : step s = .refused (.badConfig s.config) :=
  if_neg (Bool.eq_false_iff.mp h)

theorem step_of_illegal (hconfig : s.config.wellFormed = true) (htrace : s.trace = w :: rest)
    (hdecode : decode w = .illegal c) : step s = .refused (.illegalEvent w c) := by
  simp [step, hconfig, State.nextWord, htrace, runWord, hdecode]

theorem runSteps_of_step_refused {r : Refusal} (h : step s = .refused r) (n : Nat) :
    runSteps (n + 1) s = .refused r := by
  rw [runSteps, h]

theorem runSteps_add_of_next {m : Nat} (h : runSteps m s = .next u) (n : Nat) :
    runSteps (m + n) s = runSteps n u := by
  induction m generalizing s with
  | zero =>
    obtain rfl : s = u := by simpa [runSteps] using h
    rw [Nat.zero_add]
  | succ m ih =>
    rw [runSteps] at h
    rw [Nat.add_right_comm, runSteps]
    cases hstep : step s with
    | next t => exact ih (by simpa [hstep] using h)
    | fault f => simp [hstep] at h
    | refused r => simp [hstep] at h

theorem runEvents_next_trace (h : runEvents es s = .next t) : t.trace = s.trace :=
  runEvents_induction (P := fun u => u.trace = s.trace) (fun _ _ _ _ hu hexec => (exec_next_trace hexec).trans hu) rfl h

theorem runEvents_next_config (h : runEvents es s = .next t) : t.config = s.config :=
  runEvents_induction (P := fun u => u.config = s.config) (fun _ _ _ _ hu hexec => (exec_next_config hexec).trans hu)
    rfl h

/-- Settles O9: the first step is refused, or the events before the illegal word leave it at the head of the trace
under the same configuration, and the step that meets it is refused. -/
theorem refusalHoldsForTheWholeRun : Obligations.RefusalHoldsForTheWholeRun := by
  refine fun s n => ⟨fun hbad => ?config, fun es u w rest c hconfig htrace hdecode hrun => ?word⟩
  case config => exact runSteps_of_step_refused (step_of_bad_config ((wellFormed_eq_false_iff _).mpr hbad)) n
  case word =>
    have hsteps : runSteps es.length s = .next u := (runSteps_encoded es (w :: rest) s hconfig htrace).trans hrun
    have htrace_u : u.trace = w :: rest := runEvents_next_trace hrun
    have hconfig_u : u.config.wellFormed = true := by rwa [runEvents_next_config hrun]
    rw [runSteps_add_of_next hsteps]
    exact runSteps_of_step_refused (step_of_illegal hconfig_u htrace_u hdecode) n

/-! The enabled events (R75) -/

theorem enables_edgeSvc_iff : s.enables .edgeSvc = true ↔ s.edgePend = true ∧ s.edgeIE = true :=
  Bool.and_eq_true_iff

theorem enables_ovfSvc_iff : s.enables .ovfSvc = true ↔ s.ovfPend = true ∧ s.ovfIE = true :=
  Bool.and_eq_true_iff

theorem State.withTrace_enables (s : State) (ws : List EventWord) (e : Instr) :
    (s.withTrace ws).enables e = s.enables e := by
  cases e <;> rfl

theorem service_next_iff_requested {src : Source} {handler : State → State} :
    (∃ t, service src handler s = .next t) ↔ s.requested src = true := by
  simp [service_eq_next_iff]

/-- Under a legal configuration an event has a step exactly where R75 enables it. -/
theorem exec_next_iff_enables (hconfig : s.config.wellFormed = true) :
    (∃ t, exec e s = .next t) ↔ s.enables e = true := by
  cases e with
  | edgeSvc => exact service_next_iff_requested
  | ovfSvc => exact service_next_iff_requested
  | scale v => exact iff_of_true ⟨_, (EventEffect.scaleTicks hconfig).exec_eq⟩ rfl
  | init | tick | pin | rds => exact iff_of_true ⟨_, rfl⟩ rfl

theorem exec_of_not_enables (h : s.enables e = false) : ∃ f, exec e s = .fault f := by
  cases e with
  | edgeSvc => exact ⟨_, exec_edgeSvc_of_not_requested h⟩
  | ovfSvc => exact ⟨_, exec_ovfSvc_of_not_requested h⟩
  | init | tick | pin | rds | scale => cases h

theorem step_of_not_enables (hconfig : s.config.wellFormed = true) (htrace : s.trace = encode e :: rest)
    (h : s.enables e = false) : ∃ f, step s = .fault f := by
  rw [step_of_encoded hconfig htrace]
  exact exec_of_not_enables ((s.withTrace_enables rest e).trans h)

/-- Settles O11: an event has a step where its condition holds; the step of a service without it is a fault, which is
neither a next state nor the refusal of an illegal word. -/
theorem eventsAreEnabledExactlyAsStated : Obligations.EventsAreEnabledExactlyAsStated := by
  intro s hconfig
  refine ⟨?edge, ?overflow, ?others, fun w rest htrace => ⟨?edgeStep, ?overflowStep, ?illegal⟩⟩
  case edge => exact (exec_next_iff_enables hconfig).trans enables_edgeSvc_iff
  case overflow => exact (exec_next_iff_enables hconfig).trans enables_ovfSvc_iff
  case others =>
    intro e hedge hovf
    refine (exec_next_iff_enables hconfig).mpr ?_
    cases e with
    | edgeSvc => exact absurd rfl hedge
    | ovfSvc => exact absurd rfl hovf
    | init | tick | pin | rds | scale => rfl
  case edgeStep =>
    rintro rfl hnot t r
    have disabled : s.enables .edgeSvc = false := Bool.eq_false_iff.mpr (mt enables_edgeSvc_iff.mp hnot)
    obtain ⟨f, hf⟩ := step_of_not_enables (e := .edgeSvc) hconfig htrace disabled
    simp [hf]
  case overflowStep =>
    rintro rfl hnot t r
    have disabled : s.enables .ovfSvc = false := Bool.eq_false_iff.mpr (mt enables_ovfSvc_iff.mp hnot)
    obtain ⟨f, hf⟩ := step_of_not_enables (e := .ovfSvc) hconfig htrace disabled
    simp [hf]
  case illegal => exact fun c hdecode => step_of_illegal hconfig htrace hdecode

/-- Settles O22: the service is taken exactly when requested, and the level alone chooses the rising or the falling
effect, whose fields are the field laws of its branch. -/
theorem edgeSvcTakesTheBranchOfTheLevel : Obligations.EdgeSvcTakesTheBranchOfTheLevel := by
  refine ⟨rfl, rfl, fun s => ⟨fun hnot t => ?notEnabled, fun pending enabled => ?enabled⟩⟩
  case notEnabled => simp [exec_edgeSvc_of_not_requested ((requested_edge_eq_false_iff s).mpr hnot)]
  case enabled =>
    cases level : s.level with
    | true => exact ⟨_, (EventEffect.rising pending enabled level).exec_eq, by simp [level]⟩
    | false => exact ⟨_, (EventEffect.falling pending enabled level).exec_eq, by simp [level]⟩

end Sys2Proof.Machine

/-! The virtual counter (40_counter.md): what TICK and OVF_SVC do, the composite as a number, a running capture with the
ticks it has counted, and the runs before the first rising-edge service, which do not see the counter. -/

namespace Sys2Proof.Machine

open Sys2Proof

variable {e : Instr} {es : List Instr} {s t u v w : State} {k : Nat}

theorem ne_full_of_lt {c : Byte} (below : c.toNat < 255) : c ≠ 0xFF := by
  rintro rfl
  exact absurd below (by decide)

/-! TICK (R100, R101, R105) -/

theorem State.advance_of_not_full (h : s.hwCnt ≠ 0xFF) : s.advance = { s with hwCnt := s.hwCnt + 1 } :=
  if_neg (by simpa [State.atWrap] using h)

theorem State.advance_of_overrun (full : s.hwCnt = 0xFF) (overrun : s.overruns = true) :
    s.advance = { s with hwCnt := 0x00, ovfPend := true, faultOvfOverrun := true } := by
  simp [State.advance, State.atWrap, State.raiseIf, full, overrun]

theorem State.advance_of_wrap (full : s.hwCnt = 0xFF) (notOver : s.overruns = false) :
    s.advance = { s with hwCnt := 0x00, ovfPend := true } := by
  simp [State.advance, State.atWrap, State.raiseIf, full, notOver]

theorem overruns_eq_true_iff : s.overruns = true ↔ s.ovfPend = true ∧ s.mode = .anyEdge := by
  rw [State.overruns, Bool.and_eq_true, mode_bit_eq_true_iff]

theorem overruns_eq_false_iff : s.overruns = false ↔ s.ovfPend = false ∨ s.mode = .risingOnly := by
  cases hm : s.mode <;> simp [State.overruns, Mode.bit, hm]

theorem exec_tick_of_running (running : s.cntRun = true) : exec .tick s = .next s.advance :=
  (EventEffect.advance running).exec_eq

/-- Settles O15: a stopped counter holds, and the three cases of a running one are those of its advance. -/
theorem tickAdvancesTheCounter : Obligations.TickAdvancesTheCounter := by
  refine ⟨rfl, rfl, fun s => ⟨fun stopped => (EventEffect.hold stopped).exec_eq, fun running below => ?count,
    fun running full pending anyEdge => ?overrun, fun running full notOver => ?wrap⟩⟩
  case count =>
    rw [exec_tick_of_running running, State.advance_of_not_full (ne_full_of_lt below)]
  case overrun =>
    rw [exec_tick_of_running running, State.advance_of_overrun full (overruns_eq_true_iff.mpr ⟨pending, anyEdge⟩)]
  case wrap =>
    rw [exec_tick_of_running running, State.advance_of_wrap full (overruns_eq_false_iff.mpr notOver)]

/-! OVF_SVC and the overflow increment (R103, R104) -/

theorem exec_ovfSvc_of_requested (pending : s.ovfPend = true) (enabled : s.ovfIE = true) :
    exec .ovfSvc s = .next { s with
      ovfCnt := (ovfNext s.ovfCnt s.ovfSat).1, ovfSat := (ovfNext s.ovfCnt s.ovfSat).2, ovfPend := false } :=
  (EventEffect.countOverflow pending enabled).exec_eq

/-- Settles O16: the service counts by the overflow increment, which has one case below a full count and one at it. -/
theorem ovfSvcCountsThePendingOverflow : Obligations.OvfSvcCountsThePendingOverflow := by
  refine ⟨rfl, rfl, fun s => ⟨fun pending enabled below => ?count, fun pending enabled full => ?saturate,
    fun notRequested t => ?notEnabled⟩⟩
  case count =>
    rw [exec_ovfSvc_of_requested pending enabled, ovfNext_of_not_full (ne_full_of_lt below)]
  case saturate =>
    rw [exec_ovfSvc_of_requested pending enabled, full]
    rfl
  case notEnabled =>
    simp [exec_ovfSvc_of_not_requested ((requested_overflow_eq_false_iff s).mpr notRequested)]

/-- Settles O18: the two cases of the increment. -/
theorem overflowCountSaturates : Obligations.OverflowCountSaturates := by
  intro c sat
  obtain ⟨rfl, hnext⟩ | ⟨below, hnext⟩ := ovfNext_cases c sat
  · simp
  · have hcount : (c + 1).toNat = c.toNat + 1 := by bv_omega
    simp only [hnext, hcount, ne_full_of_lt below, or_false, and_true]
    omega

/-! The composite as a number (R102) -/

theorem composite_toNat_of_unsaturated (c h : Byte) : (composite c h false).toNat = c.toNat * 256 + h.toNat := by
  rw [composite_of_unsaturated, BitVec.toNat_append, ← Nat.shiftLeft_add_eq_or_of_lt h.isLt, Nat.shiftLeft_eq]

/-- Settles O17: the two bytes side by side are the wide count, and the saturated value is a constant. -/
theorem compositeIsTheWideCount : Obligations.CompositeIsTheWideCount :=
  fun c h => ⟨composite_toNat_of_unsaturated c h, composite_of_saturated c h⟩

/-! A running capture (R36): it lasts until the next edge service -/

/-- Capture is active in an initialized block, so that INIT does not leave AnyEdge mode. -/
structure Capturing (s : State) : Prop where
  done : s.initDone = true
  running : s.cntRun = true
  anyEdge : s.mode = .anyEdge

theorem BlockInv.capturing (hs : BlockInv s) (active : s.captureActive = true) : Capturing s := by
  obtain ⟨inert, -⟩ := hs
  obtain ⟨running, anyEdge⟩ := captureActive_iff.mp active
  exact ⟨inert.initDone_of_anyEdge anyEdge, running, anyEdge⟩

theorem Capturing.exec_next (hs : Capturing s) (notEdge : e ≠ .edgeSvc) (h : exec e s = .next t) : Capturing t := by
  obtain ⟨done, running, anyEdge⟩ := hs
  cases EventEffect.of_exec h with
  | rising | falling => exact absurd rfl notEdge
  | firstInit notDone => simp [done] at notDone
  | hold | noTransition => exact ⟨done, running, anyEdge⟩
  | initTwice | advance | lineChange | countOverflow | readSample | scaleTicks =>
    constructor <;> simpa

/-! The two effects of the edge service, by the level -/

theorem EventEffect.eq_rising (h : EventEffect s .edgeSvc t) (high : s.level = true) :
    t = (s.enterService .edge).risingBranch := by
  cases h with
  | rising => rfl
  | falling _ _ low => simp [high] at low

theorem EventEffect.eq_falling (h : EventEffect s .edgeSvc t) (low : s.level = false) :
    t = (s.enterService .edge).fallingBranch := by
  cases h with
  | rising _ _ high => simp [low] at high
  | falling => rfl

/-! The ticks counted by a capture (R41, R103, R107) -/

/-- The counter stands for `k` ticks: its virtual count is `k`, or it has saturated and `k` is beyond its range. -/
def State.Counts (s : State) (k : Nat) : Prop :=
  (s.ovfSat = false ∧ s.tickCount = k) ∨ (s.ovfSat = true ∧ 65536 ≤ k)

theorem counts_risingBranch (s : State) : s.risingBranch.Counts 0 := by
  simp [State.Counts, State.tickCount]

theorem State.Counts.congr (h : s.Counts k) (hsat : t.ovfSat = s.ovfSat) (hcount : t.tickCount = s.tickCount) :
    t.Counts k := by
  rwa [State.Counts, hsat, hcount]

theorem State.Counts.advance (h : s.Counts k) (anyEdge : s.mode = .anyEdge)
    (noOverrun : s.advance.faultOvfOverrun = false) : s.advance.Counts (k + 1) := by
  rw [State.Counts, State.advance_ovfSat, tickCount_advance anyEdge noOverrun]
  obtain ⟨unsaturated, rfl⟩ | ⟨saturated, beyond⟩ := h
  · exact .inl ⟨unsaturated, rfl⟩
  · exact .inr ⟨saturated, by omega⟩

/-- Counting a pending overflow, by either service: a full count stands for at least 255 * 256 ticks already. -/
theorem State.Counts.countOverflow (h : s.Counts k) (pending : s.ovfPend = true) (cleared : t.ovfPend = false)
    (hcnt : t.hwCnt = s.hwCnt) (hovf : t.ovfCnt = (ovfNext s.ovfCnt s.ovfSat).1)
    (hsat : t.ovfSat = (ovfNext s.ovfCnt s.ovfSat).2) : t.Counts k := by
  obtain ⟨full, hnext⟩ | ⟨-, hnext⟩ := ovfNext_cases s.ovfCnt s.ovfSat
  · refine .inr ⟨by rw [hsat, hnext], ?_⟩
    obtain ⟨-, rfl⟩ | ⟨-, beyond⟩ := h
    · simp [State.tickCount, full, pending]
    · exact beyond
  · have hkept : (ovfNext s.ovfCnt s.ovfSat).2 = s.ovfSat := by rw [hnext]
    obtain ⟨unsaturated, rfl⟩ | ⟨saturated, beyond⟩ := h
    · have hcount := ovfNext_toNat_of_not_saturated (hkept.trans unsaturated)
      exact .inl ⟨hsat.trans (hkept.trans unsaturated), tickCount_of_counted pending cleared hcnt (hovf ▸ hcount)⟩
    · exact .inr ⟨hsat.trans (hkept.trans saturated), beyond⟩

theorem State.Counts.falling (h : s.Counts k) : (s.enterService .edge).fallingBranch.Counts k := by
  cases pending : s.ovfPend with
  | false => exact h.congr (by simp [pending]) (by simp [State.tickCount, pending])
  | true => exact h.countOverflow pending (by simp) (by simp) (by simp [pending]) (by simp [pending])

/-- With no overflow left to count, the composite is the number of ticks, held at its greatest value. -/
theorem State.Counts.composite_toNat (h : s.Counts k) (noneLeft : s.ovfPend = false) :
    (composite s.ovfCnt s.hwCnt s.ovfSat).toNat = min k 65535 := by
  obtain ⟨unsaturated, rfl⟩ | ⟨saturated, beyond⟩ := h
  · have := s.ovfCnt.isLt
    have := s.hwCnt.isLt
    simp only [unsaturated, composite_toNat_of_unsaturated, State.tickCount, noneLeft, Bool.toNat_false]
    omega
  · rw [saturated, composite_of_saturated, Nat.min_eq_right (by omega)]
    rfl

theorem Capturing.counts_exec_next (hs : Capturing s) (h : s.Counts k) (notEdge : e ≠ .edgeSvc)
    (hexec : exec e s = .next t) (noOverrun : t.faultOvfOverrun = false) :
    t.Counts (k + if e = .tick then 1 else 0) := by
  cases EventEffect.of_exec hexec with
  | rising | falling => exact absurd rfl notEdge
  | firstInit notDone => simp [hs.done] at notDone
  | hold stopped => simp [hs.running] at stopped
  | advance => exact h.advance hs.anyEdge noOverrun
  | countOverflow pending => exact h.countOverflow pending rfl rfl rfl rfl
  | noTransition => exact h
  | initTwice | lineChange | readSample | scaleTicks => exact h.congr (by simp) (by simp)

theorem Capturing.counts_run (hs : Capturing s) (h : s.Counts k) (notEdge : .edgeSvc ∉ es)
    (hrun : runEvents es s = .next t) (noOverrun : t.faultOvfOverrun = false) : t.Counts (k + es.count .tick) := by
  induction es generalizing s k with
  | nil =>
    obtain rfl : s = t := by simpa using hrun
    exact h
  | cons e es ih =>
    obtain ⟨u, hexec, hrest⟩ := runEvents_cons_next.mp hrun
    obtain ⟨notHead, notTail⟩ : e ≠ .edgeSvc ∧ Instr.edgeSvc ∉ es := by simpa [eq_comm] using notEdge
    have noOverrun_u : u.faultOvfOverrun = false :=
      Bool.eq_false_iff.mpr fun hf => by simp [(runEvents_bitsStaySet hrest).ovfOverrun hf] at noOverrun
    have hcount := ih (hs.exec_next notHead hexec) (hs.counts_exec_next h notHead hexec noOverrun_u) notTail hrest
    simpa [List.count_cons, Nat.add_right_comm, Nat.add_assoc] using hcount

/-! The pulse width (R107, R129) -/

/-- The rising service starts the count at 0, the run counts its ticks, and the falling service counts the overflow that
is left. -/
theorem sample_toNat_of_capture (hs : BlockInv s) (high : s.level = true) (hrise : exec .edgeSvc s = .next u)
    (notEdge : .edgeSvc ∉ es) (hrun : runEvents es u = .next v) (low : v.level = false)
    (hfall : exec .edgeSvc v = .next w) (noOverrun : w.faultOvfOverrun = false) :
    w.sample.toNat = min (es.count .tick) 65535 := by
  obtain rfl := (EventEffect.of_exec hrise).eq_rising high
  obtain rfl := (EventEffect.of_exec hfall).eq_falling low
  have capturing : Capturing (s.enterService .edge).risingBranch :=
    (hs.exec_next hrise).capturing rfl
  have counted : v.Counts (es.count .tick) := by
    simpa using capturing.counts_run (counts_risingBranch _) notEdge hrun (by simpa using noOverrun)
  rw [State.fallingBranch_sample, ← State.fallingBranch_hwCnt]
  exact counted.falling.composite_toNat (State.fallingBranch_ovfPend _)

/-- A number of 16 bits is its two bytes side by side. -/
theorem shiftLeft_or_toNat (hk : k ≤ 65535) :
    ((BitVec.ofNat 16 (k / 256) <<< 8) ||| BitVec.ofNat 16 (k % 256)).toNat = k := by
  have hlow : k % 256 < 2 ^ 8 := Nat.mod_lt _ (by decide)
  have hhigh : k / 256 < 256 := by omega
  have hlow_word : k % 256 % 2 ^ 16 = k % 256 := Nat.mod_eq_of_lt (by omega)
  have hhigh_word : k / 256 % 2 ^ 16 = k / 256 := Nat.mod_eq_of_lt (by omega)
  have hshifted : (k / 256) <<< 8 % 2 ^ 16 = (k / 256) <<< 8 := Nat.mod_eq_of_lt (by rw [Nat.shiftLeft_eq]; omega)
  rw [BitVec.toNat_or, BitVec.toNat_shiftLeft, BitVec.toNat_ofNat, BitVec.toNat_ofNat, hlow_word, hhigh_word, hshifted,
    ← Nat.shiftLeft_add_eq_or_of_lt hlow, Nat.shiftLeft_eq]
  omega

/-- Settles O46: the sample as a number, read as two bytes or as the greatest value. -/
theorem sampleIsThePulseWidth : Obligations.SampleIsThePulseWidth := by
  intro es s u v w hs high hrise notEdge hrun low hfall noOverrun _
  have hsample := sample_toNat_of_capture hs high hrise notEdge hrun low hfall noOverrun
  refine ⟨hsample, fun inRange => ?_, fun beyond => ?_⟩
  · apply BitVec.eq_of_toNat_eq
    rw [hsample, shiftLeft_or_toNat inRange, Nat.min_eq_left inRange]
  · apply BitVec.eq_of_toNat_eq
    rw [hsample, Nat.min_eq_right (by omega)]
    rfl

/-! An overflow that waits (R101, R234) -/

/-- A TICK over a waiting overflow counts up to the wrap, and there is flagged. -/
theorem overrun_advance_iff (anyEdge : s.mode = .anyEdge) (pending : s.ovfPend = true) (n : Nat) :
    (s.advance.faultOvfOverrun = true ∨ 256 ≤ s.advance.hwCnt.toNat + n) ↔
      (s.faultOvfOverrun = true ∨ 256 ≤ s.hwCnt.toNat + (n + 1)) := by
  by_cases full : s.hwCnt = 0xFF
  · rw [State.advance_of_overrun full (overruns_eq_true_iff.mpr ⟨pending, anyEdge⟩)]
    have hfull : s.hwCnt.toNat = 255 := by rw [full]; rfl
    exact iff_of_true (.inl rfl) (.inr (by omega))
  · have hcnt : (s.hwCnt + 1).toNat = s.hwCnt.toNat + 1 := by bv_omega
    rw [State.advance_of_not_full full]
    simp only [hcnt, Nat.add_assoc, Nat.add_comm n 1]

theorem Capturing.overrun_run_iff (hs : Capturing s) (pending : s.ovfPend = true) (notEdge : .edgeSvc ∉ es)
    (notOvf : .ovfSvc ∉ es) (hrun : runEvents es s = .next t) :
    t.faultOvfOverrun = true ↔ s.faultOvfOverrun = true ∨ 256 ≤ s.hwCnt.toNat + es.count .tick := by
  induction es generalizing s with
  | nil =>
    obtain rfl : s = t := by simpa using hrun
    have inRange : ¬ 256 ≤ s.hwCnt.toNat + 0 := Nat.not_le.mpr s.hwCnt.isLt
    exact (or_iff_left inRange).symm
  | cons e es ih =>
    obtain ⟨u, hexec, hrest⟩ := runEvents_cons_next.mp hrun
    obtain ⟨edgeHead, edgeTail⟩ : e ≠ .edgeSvc ∧ Instr.edgeSvc ∉ es := by simpa [eq_comm] using notEdge
    obtain ⟨ovfHead, ovfTail⟩ : e ≠ .ovfSvc ∧ Instr.ovfSvc ∉ es := by simpa [eq_comm] using notOvf
    have later := fun waiting => ih (hs.exec_next edgeHead hexec) waiting edgeTail ovfTail hrest
    cases EventEffect.of_exec hexec with
    | rising | falling => exact absurd rfl edgeHead
    | countOverflow => exact absurd rfl ovfHead
    | firstInit notDone => simp [hs.done] at notDone
    | hold stopped => simp [hs.running] at stopped
    | advance =>
      rw [List.count_cons_self, ← overrun_advance_iff hs.anyEdge pending]
      exact later (by simp [pending])
    | noTransition | initTwice | lineChange | readSample | scaleTicks => simpa using later (by simpa using pending)

/-- Settles O49: by induction on the events; only the wrap of a TICK moves the two sides. -/
theorem unservicedOverflowFaultsAtTheNextWrap : Obligations.UnservicedOverflowFaultsAtTheNextWrap := by
  intro es s t hs active pending notEdge notOvf hrun
  exact (hs.capturing active).overrun_run_iff pending notEdge notOvf hrun

/-! Runs before the first rising-edge service (R106, R230) -/

/-- The state with the counter's elements that a rising-edge service writes, at the values it writes (R125). -/
def State.clearCounter (s : State) : State :=
  { s with hwCnt := 0x00, ovfPend := false, ovfCnt := 0x00, ovfSat := false }

@[simp] theorem State.clearCounter_level (s : State) : s.clearCounter.level = s.level := rfl

theorem State.clearCounter_advance (risingOnly : s.mode = .risingOnly) :
    s.advance.clearCounter = s.clearCounter := by
  by_cases full : s.hwCnt = 0xFF
  · rw [State.advance_of_wrap full (overruns_eq_false_iff.mpr (.inr risingOnly))]
    rfl
  · rw [State.advance_of_not_full full]
    rfl

theorem State.clearCounter_countOverflow (s : State) :
    (s.enterService .overflow).ovfInc.clearCounter = s.clearCounter := rfl

theorem State.risingBranch_clearCounter (s : State) :
    (s.clearCounter.enterService .edge).risingBranch = (s.enterService .edge).risingBranch := rfl

/-- The events that act on the counter alone (R100, R104). -/
def actsOnCounter : Instr → Bool
  | .tick | .ovfSvc => true
  | .init | .pin _ | .edgeSvc | .rds | .scale _ => false

theorem exec_next_risingOnly (risingOnly : s.mode = .risingOnly) (notEdge : e ≠ .edgeSvc) (h : exec e s = .next t) :
    t.mode = .risingOnly := by
  cases EventEffect.of_exec h with
  | rising | falling => exact absurd rfl notEdge
  | firstInit => rfl
  | initTwice | advance | hold | lineChange | noTransition | countOverflow | readSample | scaleTicks => simpa

theorem clearCounter_of_actsOnCounter (risingOnly : s.mode = .risingOnly) (acts : actsOnCounter e = true)
    (h : exec e s = .next t) : t.clearCounter = s.clearCounter := by
  cases EventEffect.of_exec h with
  | advance => exact State.clearCounter_advance risingOnly
  | hold => rfl
  | countOverflow => exact s.clearCounter_countOverflow
  | initTwice | firstInit | lineChange | noTransition | rising | falling | readSample | scaleTicks => cases acts

/-- The other events do the same with a cleared counter. -/
theorem exec_clearCounter (notEdge : e ≠ .edgeSvc) (others : actsOnCounter e = false) (h : exec e s = .next t) :
    exec e s.clearCounter = .next t.clearCounter := by
  refine EventEffect.exec_eq ?_
  cases EventEffect.of_exec h with
  | rising | falling => exact absurd rfl notEdge
  | advance | hold | countOverflow => cases others
  | initTwice done => exact .initTwice (s := s.clearCounter) done
  | firstInit notDone => exact .firstInit (s := s.clearCounter) notDone
  | lineChange moves => exact .lineChange (s := s.clearCounter) moves
  | noTransition same => exact .noTransition (s := s.clearCounter) same
  | readSample => exact .readSample (s := s.clearCounter)
  | scaleTicks legal => exact .scaleTicks (s := s.clearCounter) legal

/-- In RisingOnly mode the counter is not seen: the run without the counter's own events, from the cleared counter, ends
in the same state up to the counter. -/
theorem runEvents_clearCounter (risingOnly : s.mode = .risingOnly) (notEdge : .edgeSvc ∉ es)
    (hrun : runEvents es s = .next t) :
    runEvents (es.filter (!actsOnCounter ·)) s.clearCounter = .next t.clearCounter := by
  induction es generalizing s with
  | nil =>
    obtain rfl : s = t := by simpa using hrun
    rfl
  | cons e es ih =>
    obtain ⟨u, hexec, hrest⟩ := runEvents_cons_next.mp hrun
    obtain ⟨notHead, notTail⟩ : e ≠ .edgeSvc ∧ Instr.edgeSvc ∉ es := by simpa [eq_comm] using notEdge
    have later := ih (exec_next_risingOnly risingOnly notHead hexec) notTail hrest
    cases acts : actsOnCounter e with
    | true =>
      rw [clearCounter_of_actsOnCounter risingOnly acts hexec] at later
      simpa [acts] using later
    | false =>
      rw [List.filter_cons_of_pos (by simp [acts])]
      exact runEvents_cons_next.mpr ⟨_, exec_clearCounter notHead acts hexec, later⟩

theorem runEvents_risingOnly (risingOnly : s.mode = .risingOnly) (notEdge : .edgeSvc ∉ es)
    (hrun : runEvents es s = .next t) : t.mode = .risingOnly :=
  runEvents_induction (P := fun u => u.mode = .risingOnly)
    (fun _ he _ _ hu hexec => exec_next_risingOnly hu (fun heq => notEdge (heq ▸ he)) hexec) risingOnly hrun

theorem runEvents_blockInv (hs : BlockInv s) (hrun : runEvents es s = .next t) : BlockInv t :=
  runEvents_induction (fun _ _ _ _ hu hexec => hu.exec_next hexec) hs hrun

theorem blockInv_resetWith (p : ResetParams) : BlockInv (State.resetWith p) := by
  refine ⟨?inert, ⟨rfl, rfl⟩, ?stopped, ?full, ?overrun, ?requests, ?capture⟩
  case inert => exact fun _ => ⟨rfl, rfl, rfl, rfl, rfl⟩
  case stopped => exact fun _ => rfl
  case full => exact fun h => by cases h
  case overrun => exact fun h => by cases h
  case requests => exact fun _ _ => ⟨fun h => (by cases h), fun h => (by cases h)⟩
  case capture => exact fun _ h => by cases h

theorem BlockInv.level_of_risingOnly (hs : BlockInv s) (glitchFree : s.glitchFree) (risingOnly : s.mode = .risingOnly)
    (pending : s.edgePend = true) : s.level = true := by
  obtain ⟨-, -, -, -, -, requests, -⟩ := hs
  exact (requests glitchFree risingOnly).1 pending

/-- Two states alike but for the counter are one state after a rising-edge service. -/
theorem rising_eq_of_clearCounter_eq {s₁ s₂ t₁ t₂ : State} (alike : s₁.clearCounter = s₂.clearCounter)
    (high : s₁.level = true) (h₁ : exec .edgeSvc s₁ = .next t₁) (h₂ : exec .edgeSvc s₂ = .next t₂) : t₁ = t₂ := by
  have sameLevel : s₁.clearCounter.level = s₂.clearCounter.level := by rw [alike]
  rw [State.clearCounter_level, State.clearCounter_level] at sameLevel
  rw [(EventEffect.of_exec h₁).eq_rising high, (EventEffect.of_exec h₂).eq_rising (sameLevel ▸ high),
    ← s₁.risingBranch_clearCounter, ← s₂.risingBranch_clearCounter, alike]

/-- Settles O50: up to the first edge service both runs are one run of the cleared counter; that service is a rising one,
which clears it, and the rest is one run. -/
theorem counterDrawsLeaveNoTrace : Obligations.CounterDrawsLeaveNoTrace := by
  intro p h c sat es t₁ t₂ hasEdge hrun₁ hrun₂ glitchFree
  obtain ⟨before, after, rfl, notEdge⟩ := List.eq_append_cons_of_mem hasEdge
  obtain ⟨s₁, hbefore₁, hrest₁⟩ := runEvents_append_next.mp hrun₁
  obtain ⟨s₂, hbefore₂, hrest₂⟩ := runEvents_append_next.mp hrun₂
  obtain ⟨u₁, hsvc₁, hafter₁⟩ := runEvents_cons_next.mp hrest₁
  obtain ⟨u₂, hsvc₂, hafter₂⟩ := runEvents_cons_next.mp hrest₂
  have alike : s₁.clearCounter = s₂.clearCounter := by
    have hclear₁ := runEvents_clearCounter rfl notEdge hbefore₁
    have hclear₂ := runEvents_clearCounter rfl notEdge hbefore₂
    exact Host.Outcome.next.inj (hclear₁.symm.trans hclear₂)
  have glitchFree₁ : s₁.glitchFree :=
    Bool.eq_false_iff.mpr fun hg => by simp [State.glitchFree, (runEvents_bitsStaySet hrest₁).glitch hg] at glitchFree
  obtain ⟨pending, -⟩ := execEdgeSvc_next hsvc₁
  have high : s₁.level = true :=
    (runEvents_blockInv (blockInv_resetWith p) hbefore₁).level_of_risingOnly glitchFree₁
      (runEvents_risingOnly rfl notEdge hbefore₁) pending
  obtain rfl : u₁ = u₂ := rising_eq_of_clearCounter_eq alike high hsvc₁ hsvc₂
  exact Host.Outcome.next.inj (hafter₁.symm.trans hafter₂)

end Sys2Proof.Machine

/-! Edge capture (41_capture.md): what PIN and the two branches of EDGE_SVC do, the mode, which changes one way, and the
line between two edge services. -/

namespace Sys2Proof.Machine

open Sys2Proof

variable {e : Instr} {es : List Instr} {s t u v w : State} {l : Bool}

/-! PIN (R120 to R123) -/

theorem qualifies_eq_true_iff : s.qualifies l = true ↔ s.edgeIE = true ∧ (s.mode = .anyEdge ∨ l = true) := by
  rw [State.qualifies, Bool.and_eq_true, Bool.or_eq_true, mode_bit_eq_true_iff]

theorem mode_bit_eq_false_iff (m : Mode) : m.bit = false ↔ m = .risingOnly := by
  cases m <;> simp [Mode.bit]

theorem qualifies_eq_false_iff :
    s.qualifies l = false ↔ s.edgeIE = false ∨ (s.mode = .risingOnly ∧ l = false) := by
  rw [State.qualifies, Bool.and_eq_false_iff, Bool.or_eq_false_iff, mode_bit_eq_false_iff]

theorem State.lineChange_of_qualified (idle : s.edgePend = false) (qualified : s.qualifies l = true) :
    s.lineChange l = { s with level := l, edgePend := true } := by
  simp [State.lineChange, State.raiseIf, idle, qualified]

theorem State.lineChange_of_unqualified (idle : s.edgePend = false) (unqualified : s.qualifies l = false) :
    s.lineChange l = { s with level := l } := by
  simp [State.lineChange, State.raiseIf, idle, unqualified]

theorem State.lineChange_of_pending (pending : s.edgePend = true) :
    s.lineChange l = { s with level := l, hazGlitch := true } := by
  simp [State.lineChange, State.raiseIf, pending]

theorem exec_pin_of_transition (moves : l ≠ s.level) : exec (.pin l) s = .next (s.lineChange l) :=
  (EventEffect.lineChange moves).exec_eq

/-- Settles O19: a transition finds a request waiting, or it is qualified, or it is not. -/
theorem pinDetectsTransitions : Obligations.PinDetectsTransitions := by
  refine ⟨rfl, rfl, fun _ => rfl, fun s l => ⟨fun same => (EventEffect.noTransition same).exec_eq,
    fun moves idle enabled rising => ?request, fun moves idle unqualified => ?noRequest,
    fun moves pending => ?glitch⟩⟩
  case request =>
    rw [exec_pin_of_transition moves,
      State.lineChange_of_qualified idle (qualifies_eq_true_iff.mpr ⟨enabled, rising⟩)]
  case noRequest =>
    rw [exec_pin_of_transition moves, State.lineChange_of_unqualified idle (qualifies_eq_false_iff.mpr unqualified)]
  case glitch => rw [exec_pin_of_transition moves, State.lineChange_of_pending pending]

/-! EDGE_SVC (R125, R126) -/

/-- Settles O20: the rising branch is the written-out update. -/
theorem edgeSvcHighStartsThePulse : Obligations.EdgeSvcHighStartsThePulse :=
  fun _ pending enabled high => (EventEffect.rising pending enabled high).exec_eq

theorem State.fallingBranch_of_no_overflow (noneLeft : s.ovfPend = false) :
    s.fallingBranch = { s with sample := composite s.ovfCnt s.hwCnt s.ovfSat, cntRun := false } := by
  simp [State.fallingBranch, State.publish, noneLeft]

theorem State.fallingBranch_of_overflow {c : Byte} {sat : Bool} (pending : s.ovfPend = true)
    (counted : ovfNext s.ovfCnt s.ovfSat = (c, sat)) :
    s.fallingBranch = { s with ovfCnt := c, ovfSat := sat, ovfPend := false, sample := composite c s.hwCnt sat,
                               cntRun := false } := by
  simp [State.fallingBranch, State.publish, pending, counted]

/-- Settles O21: without a pending overflow the count stands; with one the increment has one case below a full count and
one at it. -/
theorem edgeSvcLowPublishesThePulse : Obligations.EdgeSvcLowPublishesThePulse := by
  intro s pending enabled low
  rw [(EventEffect.falling pending enabled low).exec_eq]
  refine ⟨fun noneLeft => ?plain, fun overflow below => ?counts, fun overflow full => ?full⟩
  case plain =>
    rw [State.fallingBranch_of_no_overflow (s := s.enterService .edge) noneLeft]
    rfl
  case counts =>
    have counted := ovfNext_of_not_full (ne_full_of_lt below) s.ovfSat
    rw [State.fallingBranch_of_overflow (s := s.enterService .edge) overflow counted]
    rfl
  case full =>
    have saturated : ovfNext s.ovfCnt s.ovfSat = (s.ovfCnt, true) := by simp [full]
    rw [State.fallingBranch_of_overflow (s := s.enterService .edge) overflow saturated]
    rfl

/-! The mode (R127) -/

theorem mode_change_cases (h : exec e s = .next t) (changed : t.mode ≠ s.mode) :
    (e = .init ∧ s.initDone = false ∧ t.mode = .risingOnly) ∨
      (e = .edgeSvc ∧ s.level = true ∧ t.mode = .anyEdge) := by
  cases EventEffect.of_exec h with
  | firstInit notDone => exact .inl ⟨rfl, notDone, rfl⟩
  | rising _ _ high => exact .inr ⟨rfl, high, rfl⟩
  | initTwice | advance | hold | lineChange | noTransition | falling | countOverflow | readSample | scaleTicks =>
    simp at changed

theorem mode_of_rising (high : s.level = true) (h : exec .edgeSvc s = .next t) : t.mode = .anyEdge := by
  rw [(EventEffect.of_exec h).eq_rising high, State.risingBranch_mode]

/-- The one event that could take AnyEdge back is the first INIT, and that is over. -/
theorem exec_next_anyEdge (done : s.initDone = true) (anyEdge : s.mode = .anyEdge) (h : exec e s = .next t) :
    t.mode = .anyEdge := by
  by_cases changed : t.mode = s.mode
  · exact changed.trans anyEdge
  · obtain ⟨-, notDone, -⟩ | ⟨-, -, ht⟩ := mode_change_cases h changed
    · simp [done] at notDone
    · exact ht

theorem exec_next_initDone (done : s.initDone = true) (h : exec e s = .next t) : t.initDone = true :=
  (EventEffect.of_exec h).bitsStaySet.initDone done

theorem BlockInv.initDone_of_anyEdge (hs : BlockInv s) (anyEdge : s.mode = .anyEdge) : s.initDone = true := by
  obtain ⟨inert, -⟩ := hs
  exact inert.initDone_of_anyEdge anyEdge

theorem BlockInv.run_anyEdge (hs : BlockInv s) (anyEdge : s.mode = .anyEdge) (hrun : runEvents es s = .next t) :
    t.mode = .anyEdge :=
  (runEvents_induction (P := fun u => u.initDone = true ∧ u.mode = .anyEdge)
    (fun _ _ _ _ ⟨done, hmode⟩ hexec => ⟨exec_next_initDone done hexec, exec_next_anyEdge done hmode hexec⟩)
    ⟨hs.initDone_of_anyEdge anyEdge, anyEdge⟩ hrun).2

/-- Settles O40: an initialized block has no first INIT, so every event keeps AnyEdge. -/
theorem modeNeverReturnsToRisingOnly : Obligations.ModeNeverReturnsToRisingOnly :=
  ⟨fun _ _ _ h changed => mode_change_cases h changed, fun _ _ high h => mode_of_rising high h,
    fun _ _ _ hs anyEdge hrun => hs.run_anyEdge anyEdge hrun⟩

/-! The first edge service (R130) -/

theorem exec_edgeSvc_next_edgePend (h : exec .edgeSvc s = .next t) : s.edgePend = true :=
  (execEdgeSvc_next h).1

theorem capture_starts (high : s.level = true) (h : exec .edgeSvc s = .next t) :
    t.captureActive = true ∧ t.tickCount = 0 := by
  rw [(EventEffect.of_exec h).eq_rising high]
  exact ⟨captureActive_iff.mpr ⟨rfl, rfl⟩, by simp [State.tickCount]⟩

theorem falling_transition_ignored (risingOnly : s.mode = .risingOnly) (idle : s.edgePend = false)
    (h : exec (.pin false) s = .next t) : t.edgePend = false := by
  cases EventEffect.of_exec h with
  | noTransition => exact idle
  | lineChange =>
    rw [State.lineChange_of_unqualified idle (qualifies_eq_false_iff.mpr (.inr ⟨risingOnly, rfl⟩))]
    exact idle

/-- Settles O44: the run is still in RisingOnly mode, where the invariant gives a request a high line. -/
theorem firstServiceIsRising : Obligations.FirstServiceIsRising := by
  refine ⟨fun p es t u notEdge hrun glitchFree hsvc => ?_,
    fun s t risingOnly idle h => falling_transition_ignored risingOnly idle h⟩
  have high : t.level = true :=
    (runEvents_blockInv (blockInv_resetWith p) hrun).level_of_risingOnly glitchFree
      (runEvents_risingOnly rfl notEdge hrun) (exec_edgeSvc_next_edgePend hsvc)
  exact ⟨high, capture_starts high hsvc⟩

/-! A request and the line (R131) -/

theorem BitsStaySet.glitchFree_of_later (h : BitsStaySet s t) (glitchFree : t.glitchFree) : s.glitchFree :=
  Bool.eq_false_iff.mpr fun hg => Bool.eq_false_iff.mp glitchFree (h.glitch hg)

theorem BlockInv.anyEdge_of_low (hs : BlockInv s) (glitchFree : s.glitchFree) (pending : s.edgePend = true)
    (low : s.level = false) : s.mode = .anyEdge := by
  cases hm : s.mode with
  | anyEdge => rfl
  | risingOnly => simp [hs.level_of_risingOnly glitchFree hm pending] at low

/-- In AnyEdge mode a request finds the counter stopped by a falling service or started by a rising one. -/
theorem BlockInv.cntRun_of_pending (hs : BlockInv s) (glitchFree : s.glitchFree) (anyEdge : s.mode = .anyEdge)
    (pending : s.edgePend = true) : s.cntRun = !s.level := by
  obtain ⟨-, -, -, -, -, -, capture⟩ := hs
  rw [capture glitchFree anyEdge, pending, Bool.bne_true]

theorem BlockInv.anyEdge_after_edgeSvc (hs : BlockInv s) (glitchFree : s.glitchFree)
    (h : exec .edgeSvc s = .next t) : t.mode = .anyEdge := by
  cases level : s.level with
  | true => exact mode_of_rising level h
  | false =>
    have anyEdge := hs.anyEdge_of_low glitchFree (exec_edgeSvc_next_edgePend h) level
    exact exec_next_anyEdge (hs.initDone_of_anyEdge anyEdge) anyEdge h

/-- The rising branch starts the counter and the falling branch stops it. -/
theorem cntRun_after_edgeSvc (h : exec .edgeSvc s = .next t) : t.cntRun = s.level := by
  cases EventEffect.of_exec h with
  | rising _ _ high => simp [high]
  | falling _ _ low => simp [low]

theorem exec_next_cntRun (done : s.initDone = true) (notEdge : e ≠ .edgeSvc) (h : exec e s = .next t) :
    t.cntRun = s.cntRun := by
  cases EventEffect.of_exec h with
  | rising | falling => exact absurd rfl notEdge
  | firstInit notDone => simp [done] at notDone
  | initTwice | advance | hold | lineChange | noTransition | countOverflow | readSample | scaleTicks => simp

theorem runEvents_cntRun (done : s.initDone = true) (notEdge : .edgeSvc ∉ es) (hrun : runEvents es s = .next t) :
    t.cntRun = s.cntRun :=
  (runEvents_induction (P := fun u => u.initDone = true ∧ u.cntRun = s.cntRun)
    (fun _ he _ _ ⟨hdone, hcnt⟩ hexec => ⟨exec_next_initDone hdone hexec,
      (exec_next_cntRun hdone (fun heq => notEdge (heq ▸ he)) hexec).trans hcnt⟩) ⟨done, rfl⟩ hrun).2

/-- The first service sets the counter by its level, the run leaves it, and the second finds it by the opposite level. -/
theorem level_alternates (hs : BlockInv s) (hfirst : exec .edgeSvc s = .next u) (notEdge : .edgeSvc ∉ es)
    (hrun : runEvents es u = .next v) (hsecond : exec .edgeSvc v = .next w) (glitchFree : w.glitchFree) :
    v.level = !s.level := by
  have hu : BlockInv u := hs.exec_next hfirst
  have glitchFree_v := (EventEffect.of_exec hsecond).bitsStaySet.glitchFree_of_later glitchFree
  have glitchFree_u := (runEvents_bitsStaySet hrun).glitchFree_of_later glitchFree_v
  have glitchFree_s := (EventEffect.of_exec hfirst).bitsStaySet.glitchFree_of_later glitchFree_u
  have anyEdge : u.mode = .anyEdge := hs.anyEdge_after_edgeSvc glitchFree_s hfirst
  have found : s.level = !v.level :=
    calc s.level = u.cntRun := (cntRun_after_edgeSvc hfirst).symm
      _ = v.cntRun := (runEvents_cntRun (hu.initDone_of_anyEdge anyEdge) notEdge hrun).symm
      _ = !v.level := (runEvents_blockInv hu hrun).cntRun_of_pending glitchFree_v (hu.run_anyEdge anyEdge hrun)
          (exec_edgeSvc_next_edgePend hsecond)
  rw [found, Bool.not_not]

/-- A request is waiting, and with no glitch the line has the level `l`. -/
structure WaitsAtLevel (l : Bool) (s : State) : Prop where
  pending : s.edgePend = true
  level : s.glitchFree → s.level = l

theorem WaitsAtLevel.of_pin (idle : s.edgePend = false) (h : exec (.pin l) s = .next t)
    (raised : t.edgePend = true) : WaitsAtLevel l t := by
  cases EventEffect.of_exec h with
  | noTransition => simp [idle] at raised
  | lineChange => exact ⟨raised, fun _ => rfl⟩

/-- A transition over the waiting request is a glitch; no other event moves the line. -/
theorem WaitsAtLevel.exec_next (hs : WaitsAtLevel l s) (notEdge : e ≠ .edgeSvc) (h : exec e s = .next t) :
    WaitsAtLevel l t := by
  obtain ⟨pending, level⟩ := hs
  cases EventEffect.of_exec h with
  | rising | falling => exact absurd rfl notEdge
  | lineChange => exact ⟨by simp [pending], fun glitchFree => by simp [State.glitchFree, pending] at glitchFree⟩
  | hold | noTransition => exact ⟨pending, level⟩
  | initTwice | firstInit | advance | countOverflow | readSample | scaleTicks =>
    constructor <;> simpa [State.glitchFree]

theorem WaitsAtLevel.run (hs : WaitsAtLevel l s) (notEdge : .edgeSvc ∉ es) (hrun : runEvents es s = .next t) :
    WaitsAtLevel l t :=
  runEvents_induction (fun _ he _ _ hu hexec => hu.exec_next (fun heq => notEdge (heq ▸ he)) hexec) hs hrun

/-- Settles O45: alternation by the counter, which only an edge service moves; the request's level by the line, which
moves under a waiting request only as a glitch; the counter at a service by the invariant. -/
theorem branchesAlternateWithoutGlitch : Obligations.BranchesAlternateWithoutGlitch := by
  refine ⟨fun es s u v w => level_alternates, fun es s u v l idle hpin raised notEdge hrun glitchFree => ?request,
    fun s t hs h glitchFree => ⟨fun low => ?falling, fun high => ?rising⟩⟩
  case request => exact ((WaitsAtLevel.of_pin idle hpin raised).run notEdge hrun).level glitchFree
  case falling =>
    have pending := exec_edgeSvc_next_edgePend h
    rw [hs.cntRun_of_pending glitchFree (hs.anyEdge_of_low glitchFree pending low) pending, low, Bool.not_false]
  case rising =>
    refine Bool.eq_false_iff.mpr fun active => ?_
    obtain ⟨running, anyEdge⟩ := captureActive_iff.mp active
    simp [hs.cntRun_of_pending glitchFree anyEdge (exec_edgeSvc_next_edgePend h), high] at running

end Sys2Proof.Machine

/-! Initialization (42_init.md): a block before INIT moves only LEVEL and the output history, the first INIT sets its
starting state, and a later one its fault bit. -/

namespace Sys2Proof.Machine

open Sys2Proof

variable {e : Instr} {es : List Instr} {s t u : State}

/-! A block before INIT (R143) -/

/-- The block captures nothing: not initialized, counter stopped, both services neither pending nor enabled. -/
structure Inert (s : State) : Prop where
  notDone : s.initDone = false
  stopped : s.cntRun = false
  edgeIdle : s.edgePend = false
  ovfIdle : s.ovfPend = false
  edgeOff : s.edgeIE = false
  ovfOff : s.ovfIE = false

theorem BlockInv.inert (hs : BlockInv s) (notDone : s.initDone = false) : Inert s := by
  obtain ⟨inert, ⟨edgeIE, ovfIE⟩, noOverflow, -⟩ := hs
  obtain ⟨-, stopped, edgeIdle, -, -⟩ := inert notDone
  exact ⟨notDone, stopped, edgeIdle, noOverflow stopped, edgeIE.trans notDone, ovfIE.trans notDone⟩

theorem Inert.exec_tick (hs : Inert s) : exec .tick s = .next s :=
  (EventEffect.hold hs.stopped).exec_eq

/-- A disabled detector qualifies no transition. -/
theorem Inert.exec_pin (hs : Inert s) (l : Bool) : exec (.pin l) s = .next { s with level := l } := by
  obtain same | moves := eq_or_ne l s.level
  · rw [(EventEffect.noTransition same).exec_eq, same]
  · rw [exec_pin_of_transition moves,
      State.lineChange_of_unqualified hs.edgeIdle (qualifies_eq_false_iff.mpr (.inl hs.edgeOff))]

theorem Inert.exec_edgeSvc_ne_next (hs : Inert s) : exec .edgeSvc s ≠ .next t := by
  simp [exec_edgeSvc_of_not_requested ((requested_edge_eq_false_iff s).mpr (.inl hs.edgeIdle))]

theorem Inert.exec_ovfSvc_ne_next (hs : Inert s) : exec .ovfSvc s ≠ .next t := by
  simp [exec_ovfSvc_of_not_requested ((requested_overflow_eq_false_iff s).mpr (.inl hs.ovfIdle))]

/-- From `s` to `t` nothing but LEVEL and the output history has changed. -/
abbrev OnlyLineAndHistoryMove (s t : State) : Prop := t = { s with level := t.level, out := t.out }

theorem OnlyLineAndHistoryMove.trans (hst : OnlyLineAndHistoryMove s t) (htu : OnlyLineAndHistoryMove t u) :
    OnlyLineAndHistoryMove s u := by
  rw [hst] at htu
  exact htu

theorem OnlyLineAndHistoryMove.inert (h : OnlyLineAndHistoryMove s t) (hs : Inert s) : Inert t := by
  obtain ⟨notDone, stopped, edgeIdle, ovfIdle, edgeOff, ovfOff⟩ := hs
  rw [h]
  exact ⟨notDone, stopped, edgeIdle, ovfIdle, edgeOff, ovfOff⟩

theorem Inert.exec_next (hs : Inert s) (notInit : e ≠ .init) (h : exec e s = .next t) :
    OnlyLineAndHistoryMove s t := by
  cases e with
  | init => exact absurd rfl notInit
  | tick =>
    obtain rfl := Host.Outcome.next.inj (hs.exec_tick.symm.trans h)
    rfl
  | pin l =>
    obtain rfl := Host.Outcome.next.inj ((hs.exec_pin l).symm.trans h)
    rfl
  | edgeSvc => exact absurd h hs.exec_edgeSvc_ne_next
  | ovfSvc => exact absurd h hs.exec_ovfSvc_ne_next
  | rds =>
    obtain rfl := execRds_next h
    rfl
  | scale v =>
    obtain ⟨-, rfl⟩ := execScale_next h
    rfl

/-- The block stays inert along the run, since what makes it so is not what moves. -/
theorem Inert.run (hs : Inert s) (notInit : .init ∉ es) (hrun : runEvents es s = .next t) :
    OnlyLineAndHistoryMove s t :=
  runEvents_induction
    (fun _ he _ _ hu hexec => hu.trans ((hu.inert hs).exec_next (fun heq => notInit (heq ▸ he)) hexec)) rfl hrun

theorem inert_resetWith (p : ResetParams) : Inert (State.resetWith p) :=
  (blockInv_resetWith p).inert rfl

/-- Settles O13: a reset state is inert, so a run without INIT moves only LEVEL and the output history and ends in an
inert state, where each event does what it does in one; the sample and the configuration are those of reset. -/
theorem blockIsInertBeforeInit : Obligations.BlockIsInertBeforeInit := by
  intro p es t notInit hrun
  have moved := (inert_resetWith p).run notInit hrun
  have inert : Inert t := moved.inert (inert_resetWith p)
  have sample : t.sample = p.sampleReset := congrArg State.sample moved
  have config : t.config = p.config := congrArg State.config moved
  refine ⟨moved, inert.exec_tick, inert.exec_pin, fun u => inert.exec_edgeSvc_ne_next,
    fun u => inert.exec_ovfSvc_ne_next, ?rds, fun legal v => ?scale⟩
  case rds => rw [EventEffect.readSample.exec_eq, State.emit, sample]
  case scale => rw [(EventEffect.scaleTicks legal).exec_eq, State.emit, config]

/-! INIT (R140, R141) -/

theorem State.raiseIf_true_initTwice (s : State) : s.raiseIf true .initTwice = { s with faultInitTwice := true } := by
  simp [State.raiseIf]

/-- Settles O14: INIT_DONE decides between the two effects, and a block before its first INIT is inert, with no request
pending. -/
theorem initSetsTheStartingStateOnce : Obligations.InitSetsTheStartingStateOnce := by
  refine ⟨rfl, rfl, fun s => ⟨fun notDone => (EventEffect.firstInit notDone).exec_eq, fun done => ?twice,
    fun hs notDone => ?idle⟩⟩
  case twice => rw [(EventEffect.initTwice done).exec_eq, s.raiseIf_true_initTwice]
  case idle => exact ⟨(hs.inert notDone).edgeIdle, (hs.inert notDone).ovfIdle⟩

end Sys2Proof.Machine

/-! The Signal Scaler (43_scaler.md R150 to R155): the duty value as an exact quotient of numbers, the clamp below,
between and above the two constants, and each of R153 to R155 read off the quotient. -/

namespace Sys2Proof.Machine

open Sys2Proof

variable {c : Config} {t t₁ t₂ m : Word}

/-! The duty value (R150, R152) -/

/-- The delivery in 16 bits drops nothing, since DUTY_MAX itself has 16 bits. -/
theorem toNat_scale (legal : c.wellFormed = true) (t : Word) :
    (scale c t).toNat =
      (clamp c t - c.ticksLow.toNat) * c.dutyMax.toNat / (c.ticksHigh.toNat - c.ticksLow.toNat) := by
  rw [scale, BitVec.toNat_ofNat]
  exact Nat.mod_eq_of_lt ((scale_quotient_le legal t).trans_lt c.dutyMax.isLt)

theorem ticksRange_pos (legal : c.wellFormed = true) : 0 < c.ticksHigh.toNat - c.ticksLow.toNat :=
  Nat.sub_pos_of_lt ((wellFormed_iff c).mp legal)

/-! The clamp (R151) -/

theorem clamp_mono (h : t₁.toNat ≤ t₂.toNat) : clamp c t₁ ≤ clamp c t₂ :=
  min_le_min_right _ (max_le_max_right _ h)

theorem clamp_of_le_ticksLow (legal : c.wellFormed = true) (h : t.toNat ≤ c.ticksLow.toNat) :
    clamp c t = c.ticksLow.toNat := by
  rw [clamp, max_eq_right h, min_eq_left ((wellFormed_iff c).mp legal).le]

theorem clamp_of_ticksHigh_le (h : c.ticksHigh.toNat ≤ t.toNat) : clamp c t = c.ticksHigh.toNat :=
  min_eq_right (h.trans (le_max_left _ _))

theorem clamp_of_between (hlow : c.ticksLow.toNat ≤ t.toNat) (hhigh : t.toNat ≤ c.ticksHigh.toNat) :
    clamp c t = t.toNat := by
  rw [clamp, max_eq_left hlow, min_eq_left hhigh]

theorem toNat_setWidth_32 (v : Word) : (v.setWidth 32).toNat = v.toNat := BitVec.toNat_setWidth_of_le (by decide)

/-- The pseudocode's clamp in 32-bit words is the clamp of R151. -/
theorem toNat_clamp_words (legal : c.wellFormed = true) (t : Word) :
    (if t.setWidth 32 < c.ticksLow.setWidth 32 then c.ticksLow.setWidth 32
      else if c.ticksHigh.setWidth 32 < t.setWidth 32 then c.ticksHigh.setWidth 32
      else t.setWidth 32 : BitVec 32).toNat = clamp c t := by
  simp only [BitVec.lt_def, toNat_setWidth_32]
  split
  · next below => rw [toNat_setWidth_32, clamp_of_le_ticksLow legal below.le]
  · next notBelow =>
    split
    · next above => rw [toNat_setWidth_32, clamp_of_ticksHigh_le above.le]
    · next notAbove => rw [toNat_setWidth_32, clamp_of_between (not_lt.mp notBelow) (not_lt.mp notAbove)]

/-! The 32-bit pseudocode (R150, R152) -/

/-- Both factors have 16 bits, so the product fits 32. -/
theorem clamp_sub_mul_dutyMax_lt (legal : c.wellFormed = true) (t : Word) :
    (clamp c t - c.ticksLow.toNat) * c.dutyMax.toNat < 2 ^ 32 := by
  have shifted : clamp c t - c.ticksLow.toNat < 2 ^ 16 :=
    (Nat.sub_le _ _).trans_lt ((clamp_bounds legal t).2.trans_lt c.ticksHigh.isLt)
  calc (clamp c t - c.ticksLow.toNat) * c.dutyMax.toNat
    _ < 2 ^ 16 * 2 ^ 16 := Nat.mul_lt_mul'' shifted c.dutyMax.isLt
    _ = 2 ^ 32 := by decide

/-- Settles O26: the clamped word is the clamp, so neither difference borrows and the product has no carry out; the
word's quotient is then the number that `scale` delivers. -/
theorem thirtyTwoBitScalerIsExact : Obligations.ThirtyTwoBitScalerIsExact := by
  intro c T legal t lo hi dm tc
  have clamped : tc.toNat = clamp c T := toNat_clamp_words legal T
  have shifted : (tc - lo).toNat = clamp c T - c.ticksLow.toNat := by
    rw [BitVec.toNat_sub_of_le, clamped, toNat_setWidth_32]
    rw [BitVec.le_def, clamped, toNat_setWidth_32]
    exact (clamp_bounds legal T).1
  have range : (hi - lo).toNat = c.ticksHigh.toNat - c.ticksLow.toNat := by
    rw [BitVec.toNat_sub_of_le, toNat_setWidth_32, toNat_setWidth_32]
    rw [BitVec.le_def, toNat_setWidth_32, toNat_setWidth_32]
    exact ((wellFormed_iff c).mp legal).le
  have fits : (tc - lo).toNat * dm.toNat < 2 ^ 32 := by
    rw [shifted, toNat_setWidth_32]
    exact clamp_sub_mul_dutyMax_lt legal T
  refine ⟨fits, BitVec.eq_of_toNat_eq ?_⟩
  rw [BitVec.toNat_setWidth, BitVec.toNat_udiv, BitVec.toNat_mul, Nat.mod_eq_of_lt fits, shifted, range,
    toNat_setWidth_32, scale, BitVec.toNat_ofNat]

/-! Range, monotonicity and bounds (R153, R154) -/

theorem scale_le_dutyMax (legal : c.wellFormed = true) (t : Word) : (scale c t).toNat ≤ c.dutyMax.toNat :=
  (toNat_scale legal t).trans_le (scale_quotient_le legal t)

theorem scale_mono (legal : c.wellFormed = true) (h : t₁.toNat ≤ t₂.toNat) :
    (scale c t₁).toNat ≤ (scale c t₂).toNat := by
  rw [toNat_scale legal, toNat_scale legal]
  exact Nat.div_le_div_right (Nat.mul_le_mul_right _ (Nat.sub_le_sub_right (clamp_mono h) _))

theorem scale_of_le_ticksLow (legal : c.wellFormed = true) (h : t.toNat ≤ c.ticksLow.toNat) : scale c t = 0 := by
  apply BitVec.eq_of_toNat_eq
  rw [toNat_scale legal, clamp_of_le_ticksLow legal h, Nat.sub_self, Nat.zero_mul, Nat.zero_div]
  rfl

theorem scale_of_ticksHigh_le (legal : c.wellFormed = true) (h : c.ticksHigh.toNat ≤ t.toNat) :
    scale c t = c.dutyMax := by
  apply BitVec.eq_of_toNat_eq
  rw [toNat_scale legal, clamp_of_ticksHigh_le h, Nat.mul_div_cancel_left _ (ticksRange_pos legal)]

/-- Settles O27: the quotient is at most DUTY_MAX and grows with the clamped input. -/
theorem scalerIsBoundedAndMonotone : Obligations.ScalerIsBoundedAndMonotone :=
  fun _ legal => ⟨scale_le_dutyMax legal, fun _ _ => scale_mono legal⟩

/-- Settles O28: the clamp takes the input to the constant, where the shifted value is 0 or the whole range. -/
theorem scalerMeetsItsBounds : Obligations.ScalerMeetsItsBounds :=
  fun _ _ legal => ⟨scale_of_le_ticksLow legal, scale_of_ticksHigh_le legal⟩

/-! The midpoint (R155) -/

/-- The midpoint stands above TICKS_LOW by half of the range, truncated. -/
theorem toNat_scale_midpoint (legal : c.wellFormed = true)
    (hm : m.toNat = (c.ticksLow.toNat + c.ticksHigh.toNat) / 2) :
    (scale c m).toNat = (c.ticksHigh.toNat - c.ticksLow.toNat) / 2 * c.dutyMax.toNat /
      (c.ticksHigh.toNat - c.ticksLow.toNat) := by
  have hlt := (wellFormed_iff c).mp legal
  have between : clamp c m = m.toNat := clamp_of_between (by omega) (by omega)
  have half : m.toNat - c.ticksLow.toNat = (c.ticksHigh.toNat - c.ticksLow.toNat) / 2 := by omega
  rw [toNat_scale legal, between, half]

theorem half_mul_div_of_even {w : Nat} (pos : 0 < w) (even : w % 2 = 0) (d : Nat) : w / 2 * d / w = d / 2 := by
  obtain ⟨k, rfl⟩ := Nat.dvd_of_mod_eq_zero even
  rw [Nat.mul_div_cancel_left k two_pos, Nat.mul_comm 2 k, Nat.mul_div_mul_left _ _ (by omega)]

/-- Before truncation the duty value of an odd range's midpoint misses half of DUTY_MAX by DUTY_MAX / (2 w). -/
theorem half_mul_div_of_odd {w : Nat} (odd : w % 2 = 1) (d : Nat) :
    ((w / 2 * d : ℕ) : ℚ) / (w : ℚ) = (d : ℚ) / 2 - (d : ℚ) / (2 * (w : ℚ)) := by
  have nonzero : (w : ℚ) ≠ 0 := Nat.cast_ne_zero.mpr (by omega)
  have half : (w : ℚ) = 2 * ((w / 2 : ℕ) : ℚ) + 1 := by exact_mod_cast (show w = 2 * (w / 2) + 1 by omega)
  rw [Nat.cast_mul]
  field_simp
  linear_combination (-(d : ℚ)) * half

/-- Settles O29: an even range's half cancels against it; an odd range leaves the quotient above, and truncation takes
off less than 1. -/
theorem scalerMidpointIsHalf : Obligations.ScalerMidpointIsHalf := by
  intro c m legal hm w dm
  rw [toNat_scale_midpoint legal hm]
  refine ⟨fun even => half_mul_div_of_even (ticksRange_pos legal) even dm, fun odd => ?_⟩
  have untruncated := half_mul_div_of_odd odd dm
  have truncated : ((w / 2 * dm / w : ℕ) : ℚ) ≤ ((w / 2 * dm : ℕ) : ℚ) / (w : ℚ) := Nat.cast_div_le
  have lessThanOne : ((w / 2 * dm : ℕ) : ℚ) / (w : ℚ) - 1 < ((w / 2 * dm / w : ℕ) : ℚ) := by
    rw [← Nat.floor_div_eq_div (K := ℚ) (w / 2 * dm) w]
    exact Nat.sub_one_lt_floor _
  have miss : 0 ≤ (dm : ℚ) / (2 * (w : ℚ)) := by positivity
  exact ⟨untruncated ▸ lessThanOne, by linarith⟩

/-! SCALE (R150, R151) -/

/-- Settles O25: under a legal configuration SCALE has its one effect, and the duty value is the exact quotient. -/
theorem scaleAppendsTheDutyValue : Obligations.ScaleAppendsTheDutyValue := by
  refine fun s t => ⟨encode_scale_eq t, rfl, fun h => ?_⟩
  have legal := (wellFormed_iff s.config).mpr h
  exact ⟨scale s.config t, (EventEffect.scaleTicks legal).exec_eq, toNat_scale legal t⟩

end Sys2Proof.Machine

/-! The atomic sample latch (44_latch.md): SAMPLE holds the last value published, RDS appends it whole, and SCALE of a
value already read sees nothing that came after. -/

namespace Sys2Proof.Machine

open Sys2Proof

variable {e : Instr} {es : List Instr} {s t u : State} {o : OutEntry}

/-! What a run publishes (R172) -/

theorem publishedBy_of_next (h : exec e s = .next t) :
    publishedBy e s = if e = .edgeSvc ∧ s.level = false then [t.sample] else [] := by
  rw [publishedBy, h]

theorem published_cons_of_next (h : exec e s = .next u) :
    published (e :: es) s = publishedBy e s ++ published es u := by
  rw [published, h]

/-! SAMPLE is the last value published (R55, R172) -/

/-- A falling-edge service publishes the sample that it leaves; no other event changes the sample. -/
theorem exec_next_sample (h : exec e s = .next t) : t.sample = (publishedBy e s).getLastD s.sample := by
  rw [publishedBy_of_next h]
  split
  · rfl
  · next notFalling =>
    by_contra changed
    obtain ⟨edge, low, -⟩ := onlyAFallingServiceWritesTheSample e s t h changed
    exact notFalling ⟨edge, low⟩

theorem exec_next_sample_cases (h : exec e s = .next t) : t.sample = s.sample ∨ t.sample ∈ publishedBy e s :=
  List.mem_cons.mp (exec_next_sample h ▸ List.getLastD_mem_cons)

theorem runEvents_next_sample (h : runEvents es s = .next t) : t.sample = (published es s).getLastD s.sample := by
  induction es generalizing s with
  | nil =>
    obtain rfl : s = t := by simpa using h
    rfl
  | cons e es ih =>
    obtain ⟨u, hexec, hrest⟩ := runEvents_cons_next.mp h
    rw [published_cons_of_next hexec, ih hrest, exec_next_sample hexec]
    simp [List.getLastD_eq_getLast?, List.getLast?_append]

/-! RDS (R170, R172) -/

theorem exec_rds (s : State) : exec .rds s = .next { s with out := s.out ++ [⟨.rd, s.sample⟩] } :=
  EventEffect.readSample.exec_eq

/-- Settles O35: RDS appends the sample, and a run leaves there the last value that it published. -/
theorem rdsReturnsTheLastPublishedValue : Obligations.RdsReturnsTheLastPublishedValue := by
  intro es s t h
  rw [exec_rds, runEvents_next_sample h]

theorem exec_rds_of_unpublished (h : runEvents es s = .next t) (unpublished : published es s = []) :
    exec .rds t = .next { t with out := t.out ++ [⟨.rd, s.sample⟩] } := by
  rw [rdsReturnsTheLastPublishedValue es s t h, unpublished, List.getLastD_nil]

/-- Settles O24: a run that publishes nothing has no last value, so RDS returns the sample of its start. -/
theorem rdsReadsTheWholeSample : Obligations.RdsReadsTheWholeSample :=
  ⟨rfl, rfl, exec_rds, fun _ _ _ => exec_rds_of_unpublished, fun _ _ _ => exec_rds_of_unpublished⟩

/-! The output history of a run (R59) -/

theorem eq_sample_of_rd_output (ho : o ∈ outputOf e s) (rd : o.port = .rd) : o.value = s.sample := by
  cases e with
  | rds =>
    obtain rfl : o = ⟨.rd, s.sample⟩ := by simpa [outputOf] using ho
    rfl
  | scale v =>
    obtain rfl : o = ⟨.duty, scale s.config v⟩ := by simpa [outputOf] using ho
    cases rd
  | init | tick | pin | edgeSvc | ovfSvc => cases ho

/-- An RD entry of a run's history stood there at the start, or it is the first sample or a value published. -/
theorem runEvents_next_rd_entry (h : runEvents es s = .next t) (ho : o ∈ t.out) (rd : o.port = .rd) :
    o ∈ s.out ∨ o.value = s.sample ∨ o.value ∈ published es s := by
  induction es generalizing s with
  | nil =>
    obtain rfl : s = t := by simpa using h
    exact .inl ho
  | cons e es ih =>
    obtain ⟨u, hexec, hrest⟩ := runEvents_cons_next.mp h
    rw [published_cons_of_next hexec, List.mem_append]
    obtain before | first | later := ih hrest
    · rw [exec_next_out hexec, List.mem_append] at before
      exact before.imp_right fun new => .inl (eq_sample_of_rd_output new rd)
    · rw [first]
      exact .inr ((exec_next_sample_cases hexec).imp_right .inl)
    · exact .inr (.inr (.inr later))

/-- Settles O36: the history is empty at reset, and the sample is SAMPLE_RESET. -/
theorem noReadIsTorn : Obligations.NoReadIsTorn := by
  intro p es t h o ho rd
  obtain before | read := runEvents_next_rd_entry h ho rd
  · cases before
  · exact read

theorem runEvents_next_out_prefix (h : runEvents es s = .next t) : s.out <+: t.out :=
  runEvents_induction (P := fun u => s.out <+: u.out)
    (fun e _ u _ hu hexec => exec_next_out hexec ▸ hu.trans (List.prefix_append u.out (outputOf e u)))
    List.prefix_rfl h

/-- Settles O30: RDS appends first and SCALE last, the events between only add to the history, and no event writes the
configuration that SCALE reads. -/
theorem dutyOfAReadSampleIgnoresLaterEvents : Obligations.DutyOfAReadSampleIgnoresLaterEvents := by
  intro es s t h
  obtain ⟨v, hbefore, hscale⟩ := runEvents_append_next.mp h
  obtain ⟨u, hread, hbetween⟩ := runEvents_cons_next.mp hbefore
  obtain ⟨w, hexec, hend⟩ := runEvents_cons_next.mp hscale
  obtain rfl : w = t := by simpa using hend
  obtain ⟨between, grows⟩ := runEvents_next_out_prefix hbetween
  refine ⟨between, ?_⟩
  calc w.out
    _ = v.out ++ [⟨.duty, scale v.config s.sample⟩] := exec_next_out hexec
    _ = u.out ++ between ++ [⟨.duty, scale s.config s.sample⟩] := by rw [grows, runEvents_next_config hbefore]
    _ = s.out ++ ⟨.rd, s.sample⟩ :: between ++ [⟨.duty, scale s.config s.sample⟩] := by
      rw [exec_next_out hread, outputOf, List.append_assoc s.out, List.singleton_append]

end Sys2Proof.Machine

/-! Interrupts and runs (60_exceptions.md): the end of the trace, requests that wait for their service, and the two
orders of simultaneous services. -/

namespace Sys2Proof.Machine

open Sys2Proof

variable {e : Instr} {es : List Instr} {s t : State}

/-! The end of a run (R222) -/

/-- Settles O8: the configuration passes its check, and the trace has no next word. -/
theorem stepStopsWhenTheTraceIsOver : Obligations.StepStopsWhenTheTraceIsOver := by
  intro s hconfig htrace
  have noWord : s.nextWord = none := by rw [State.nextWord, htrace]
  rw [step, if_pos hconfig, noWord]

/-! A request waits for its service (R202, R203, R221) -/

theorem requested_edge_eq_true_iff : s.requested .edge = true ↔ s.edgePend = true ∧ s.edgeIE = true :=
  Bool.and_eq_true_iff

theorem requested_overflow_eq_true_iff : s.requested .overflow = true ↔ s.ovfPend = true ∧ s.ovfIE = true :=
  Bool.and_eq_true_iff

/-- Only an edge service clears EDGE_PEND; at what level the request waits does not matter. -/
theorem runEvents_edgePend (pending : s.edgePend = true) (notEdge : .edgeSvc ∉ es) (hrun : runEvents es s = .next t) :
    t.edgePend = true :=
  (WaitsAtLevel.run (l := s.level) ⟨pending, fun _ => rfl⟩ notEdge hrun).pending

theorem exec_next_ovfPend (pending : s.ovfPend = true) (notEdge : e ≠ .edgeSvc) (notOvf : e ≠ .ovfSvc)
    (h : exec e s = .next t) : t.ovfPend = true := by
  cases EventEffect.of_exec h with
  | rising | falling => exact absurd rfl notEdge
  | countOverflow => exact absurd rfl notOvf
  | initTwice | firstInit | advance | hold | lineChange | noTransition | readSample | scaleTicks => simp [pending]

theorem runEvents_ovfPend (pending : s.ovfPend = true) (notEdge : .edgeSvc ∉ es) (notOvf : .ovfSvc ∉ es)
    (hrun : runEvents es s = .next t) : t.ovfPend = true :=
  runEvents_induction (P := fun u => u.ovfPend = true)
    (fun _ he _ _ hu => exec_next_ovfPend hu (ne_of_mem_of_not_mem he notEdge) (ne_of_mem_of_not_mem he notOvf))
    pending hrun

/-- Settles O42: the request waits while no service clears it, and no run clears its enable. -/
theorem requestsWaitForTheirService : Obligations.RequestsWaitForTheirService := by
  intro es s t notEdge hrun
  have bits : BitsStaySet s t := runEvents_bitsStaySet hrun
  refine ⟨fun hreq => ?edge, fun notOvf hreq => ?overflow⟩
  case edge =>
    obtain ⟨pending, enabled⟩ := requested_edge_eq_true_iff.mp hreq
    exact requested_edge_eq_true_iff.mpr ⟨runEvents_edgePend pending notEdge hrun, bits.edgeIE enabled⟩
  case overflow =>
    obtain ⟨pending, enabled⟩ := requested_overflow_eq_true_iff.mp hreq
    exact requested_overflow_eq_true_iff.mpr ⟨runEvents_ovfPend pending notEdge notOvf hrun, bits.ovfIE enabled⟩

/-! Simultaneous overflow and edge (R207) -/

theorem exec_edgeSvc_of_requested (h : s.requested .edge = true) :
    exec .edgeSvc s = .next (s.enterService .edge).edgeHandler :=
  service_eq_next_iff.mpr ⟨h, rfl⟩

/-- Both branches account for a pending overflow: the rising one drops it, the falling one counts it. -/
@[simp] theorem State.edgeHandler_ovfPend (s : State) : s.edgeHandler.ovfPend = false := by
  cases level : s.level <;> simp [State.edgeHandler, level]

/-- The rising branch clears what OVF_SVC writes. -/
theorem State.risingBranch_countOverflow (s : State) :
    (s.enterService .overflow).ovfInc.risingBranch = s.risingBranch := rfl

/-- The falling branch counts a pending overflow as OVF_SVC does. -/
theorem State.fallingBranch_countOverflow (pending : s.ovfPend = true) :
    (s.enterService .overflow).ovfInc.fallingBranch = s.fallingBranch := by
  rw [State.fallingBranch_of_no_overflow rfl, State.fallingBranch_of_overflow pending rfl]
  rfl

/-- The edge handler hides whether a pending overflow was counted before it. -/
theorem State.edgeHandler_countOverflow (pending : s.ovfPend = true) :
    (s.enterService .overflow).ovfInc.edgeHandler = s.edgeHandler := by
  cases level : s.level with
  | true => simp [State.edgeHandler, level, s.risingBranch_countOverflow]
  | false => simp [State.edgeHandler, level, State.fallingBranch_countOverflow pending]

/-- Settles O43: entering the two services commutes, and the edge handler leaves no overflow for OVF_SVC. -/
theorem serviceOrderDoesNotMatter : Obligations.ServiceOrderDoesNotMatter := by
  intro s hedge hoverflow
  obtain ⟨pending, enabled⟩ := requested_overflow_eq_true_iff.mp hoverflow
  refine ⟨_, (s.enterService .edge).edgeHandler, (EventEffect.countOverflow pending enabled).exec_eq, ?overflowFirst,
    exec_edgeSvc_of_requested hedge, fun t => ?noOverflowLeft⟩
  case overflowFirst =>
    rw [exec_edgeSvc_of_requested (s := (s.enterService .overflow).ovfInc) hedge,
      ← State.edgeHandler_countOverflow (s := s.enterService .edge) pending]
    rfl
  case noOverflowLeft =>
    simp [exec_ovfSvc_of_not_requested ((requested_overflow_eq_false_iff _).mpr (.inl (State.edgeHandler_ovfPend _)))]

end Sys2Proof.Machine

/-! Reset and latency (70_reset_and_hazards.md): the reset state element by element, the invariant there, and what a
measurement makes of the latency of its two services. -/

namespace Sys2Proof.Machine

open Sys2Proof

variable {e : Instr} {es : List Instr} {s t : State} {l : Bool}

/-! The reset state (R230) -/

/-- Settles O12: each conjunct is one field of the reset state's definition. -/
theorem resetStateIsAsListed : Obligations.ResetStateIsAsListed :=
  fun _ => ⟨rfl, rfl, rfl, rfl, rfl, rfl, rfl, rfl, rfl, rfl, rfl, rfl, rfl, rfl, rfl, rfl, rfl⟩

/-- Settles O38: the base case of the invariant, which holds for every draw and parameter. -/
theorem invariantHoldsAtReset : Obligations.InvariantHoldsAtReset := blockInv_resetWith

/-! The level of the line (R33, R120): PIN sets it, and no other event moves it -/

theorem exec_pin_next_level (h : exec (.pin l) s = .next t) : t.level = l := by
  cases EventEffect.of_exec h with
  | lineChange => rfl
  | noTransition same => exact same.symm

theorem exec_next_level (notPin : ∀ l, e ≠ .pin l) (h : exec e s = .next t) : t.level = s.level := by
  cases EventEffect.of_exec h with
  | lineChange | noTransition => exact absurd rfl (notPin _)
  | initTwice | firstInit | advance | hold | rising | falling | countOverflow | readSample | scaleTicks => simp

theorem runEvents_level (notPin : ∀ l, .pin l ∉ es) (hrun : runEvents es s = .next t) : t.level = s.level :=
  runEvents_induction (P := fun u => u.level = s.level)
    (fun _ he _ _ hu hexec => (exec_next_level (fun l => ne_of_mem_of_not_mem he (notPin l)) hexec).trans hu) rfl hrun

/-- After PIN `l` the line stays at `l` until the next PIN. -/
theorem runEvents_pin_cons_level (notPin : ∀ l, .pin l ∉ es) (hrun : runEvents (.pin l :: es) s = .next t) :
    t.level = l := by
  obtain ⟨u, hpin, hrest⟩ := runEvents_cons_next.mp hrun
  exact (runEvents_level notPin hrest).trans (exec_pin_next_level hpin)

/-! Latency (R236) -/

/-- The ticks between the two services: what the rising service missed is gone, what the falling one waited for is in. -/
theorem count_tick_between_services (before during after : List Instr) :
    (during ++ .pin false :: after).count .tick =
      (before ++ during).count .tick - before.count .tick + after.count .tick := by
  have pinIsNoTick : (Instr.pin false :: after).count .tick = after.count .tick := List.count_cons_of_ne (by decide)
  rw [List.count_append, List.count_append, pinIsNoTick, Nat.add_sub_cancel_left]

/-- Settles O47: the first PIN leaves the line high for the first service and the second leaves it low for the last, so
the sample is the ticks between the two services, of which `a` of the high time are missing and `b` are added. -/
theorem latencyEntersTheMeasurement : Obligations.LatencyEntersTheMeasurement := by
  intro before during after s t others hs _ hrun noOverrun _
  have notEdge : ∀ es ⊆ before ++ during ++ after, .edgeSvc ∉ es := fun _ hsub hmem => (others _ (hsub hmem)).1 rfl
  have notPin : ∀ es ⊆ before ++ during ++ after, ∀ l, .pin l ∉ es :=
    fun _ hsub l hmem => (others _ (hsub hmem)).2 l rfl
  obtain ⟨v, hbeforeFall, hlast⟩ := runEvents_append_next.mp hrun
  obtain ⟨x, hbeforePin, hpinAfter⟩ := runEvents_append_next.mp hbeforeFall
  obtain ⟨r, hpinBefore, hrest⟩ := runEvents_append_next.mp hbeforePin
  obtain ⟨u, hrise, hduring⟩ := runEvents_cons_next.mp hrest
  have hfall : exec .edgeSvc v = .next t := by simpa [runEvents_cons_next] using hlast
  have high : r.level = true := runEvents_pin_cons_level (notPin _ (by simp)) hpinBefore
  have low : v.level = false := runEvents_pin_cons_level (notPin _ (by simp)) hpinAfter
  have noService : .edgeSvc ∉ during ++ .pin false :: after := by
    simp [notEdge during (by simp), notEdge after (by simp)]
  rw [sample_toNat_of_capture (runEvents_blockInv hs hpinBefore) high hrise noService
    (runEvents_append_next.mpr ⟨x, hduring, hpinAfter⟩) low hfall noOverrun, count_tick_between_services before]

end Sys2Proof.Machine

/-! The assembler (30_encoding.md R76, R77): the words of each event, the text of a line that is read, the numbers that
digits stand for, and what a line of text assembles to. -/

namespace Sys2Proof.Machine

open Sys2Proof

variable {e : SrcEvent} {n : Nat} {c : Char} {line head text : List Char}

/-! The words of an event (R71, R72, R77) -/

theorem assembleEvent_of_wellFormed (h : e.wellFormed = true) :
    assembleEvent e = .words ((expand e).map encode) :=
  if_pos h

theorem assembleEvent_ne_words (h : e.wellFormed = false) (ws : List EventWord) : assembleEvent e ≠ .words ws := by
  simp [assembleEvent_of_not_wellFormed h]

theorem encode_pin_eq_add (h : n ≤ 1) : encode (.pin (n == 1)) = 0x30000 + BitVec.ofNat 20 n := by
  obtain rfl | rfl := Nat.le_one_iff_eq_zero_or_eq_one.mp h <;> decide

theorem encode_scale_eq_add (h : n ≤ 65535) :
    encode (.scale (BitVec.ofNat 16 n)) = 0x70000 + BitVec.ofNat 20 n := by
  have hword : (encode (.scale (BitVec.ofNat 16 n))).toNat = 0x70000 + n % 2 ^ 16 := by
    simp [encode, toNat_eventWord]
  apply BitVec.eq_of_toNat_eq
  simp only [hword, BitVec.toNat_add, BitVec.toNat_ofNat, BitVec.ofNat_eq_ofNat]
  omega

theorem assembleEvent_pin (h : n ≤ 1) : assembleEvent (.pin n) = .words [0x30000 + BitVec.ofNat 20 n] := by
  rw [assembleEvent_of_wellFormed (e := .pin n) (decide_eq_true h), expand, List.map_singleton, encode_pin_eq_add h]

theorem assembleEvent_scale (h : n ≤ 65535) : assembleEvent (.scale n) = .words [0x70000 + BitVec.ofNat 20 n] := by
  rw [assembleEvent_of_wellFormed (e := .scale n) (decide_eq_true h), expand, List.map_singleton, encode_scale_eq_add h]

theorem assembleEvent_tickTimes (positive : 1 ≤ n) (bound : n ≤ 2 ^ 20) :
    assembleEvent (.tickTimes n) = .words (List.replicate n 0x20000) := by
  have tickWord : encode .tick = 0x20000 := rfl
  rw [assembleEvent_of_wellFormed (e := .tickTimes n) (decide_eq_true ⟨positive, bound⟩), expand, List.map_replicate,
    tickWord]

/-! The text of a line that is read: what stands before the comment, without the spaces around it -/

/-- What `assembleLine` hands to `parseEvent`. -/
def eventText (line : List Char) : List Char := trimSpaces (line.takeWhile (· != ';'))

theorem assembleLine_congr {line' : List Char} (h : eventText line = eventText line') :
    assembleLine line = assembleLine line' := by
  unfold eventText at h
  unfold assembleLine
  rw [h]

theorem assembleLine_of_parseEvent_some (h : parseEvent (eventText line) = some e) :
    assembleLine line = assembleEvent e := by
  unfold eventText at h
  unfold assembleLine
  split
  next empty => simp [empty, parseEvent, afterPrefix] at h
  next => rw [h]

theorem assembleLine_of_parseEvent_none (nonempty : eventText line ≠ []) (h : parseEvent (eventText line) = none) :
    assembleLine line = .error .syntaxError := by
  unfold eventText at nonempty h
  unfold assembleLine
  split
  next empty => exact absurd empty nonempty
  next => rw [h]

theorem eventText_append_comment (h : ';' ∉ line) (comment : List Char) :
    eventText (line ++ ';' :: comment) = eventText line := by
  have kept : ∀ c ∈ line, (c != ';') = true := fun _ hc => bne_iff_ne.mpr (ne_of_mem_of_not_mem hc h)
  simp [eventText, List.takeWhile_append_of_pos kept, List.takeWhile_eq_self_iff.mpr kept]

theorem trimSpaces_eq_rdropWhile (cs : List Char) :
    trimSpaces cs = (cs.dropWhile (· == ' ')).rdropWhile (· == ' ') := rfl

theorem trimSpaces_eq_self {cs : List Char} (first : cs.head? ≠ some ' ') (last : cs.getLast? ≠ some ' ') :
    trimSpaces cs = cs := by
  have front : cs.dropWhile (· == ' ') = cs := by
    cases cs with
    | nil => rfl
    | cons c cs => exact List.dropWhile_cons_of_neg (by simpa using first)
  rw [trimSpaces_eq_rdropWhile, front, List.rdropWhile_eq_self_iff]
  intro nonempty
  simpa [List.getLast?_eq_some_getLast nonempty] using last

theorem exists_trimSpaces_cons (first : c ≠ ' ') (cs : List Char) : ∃ rest, trimSpaces (c :: cs) = c :: rest := by
  rw [trimSpaces_eq_rdropWhile, List.dropWhile_cons_of_neg (by simpa using first)]
  have isPrefix := List.rdropWhile_prefix (· == ' ') (l := c :: cs)
  obtain empty | ⟨rest, hrest, -⟩ := List.prefix_cons_iff.mp isPrefix
  · exact absurd (List.rdropWhile_eq_nil_iff.mp empty c List.mem_cons_self) (by simpa using first)
  · exact ⟨rest, hrest⟩

theorem eventText_cons (noComment : c ≠ ';') (first : c ≠ ' ') (cs : List Char) :
    ∃ rest, eventText (c :: cs) = c :: rest := by
  rw [eventText, List.takeWhile_cons_of_pos (by simpa using noComment)]
  exact exists_trimSpaces_cons first _

/-- A line of a mnemonic and its operand is read as it stands. -/
theorem eventText_append (headNoComment : ';' ∉ head) (first : head.head? ≠ some ' ')
    (last : head.getLast? ≠ some ' ') (textNoComment : ';' ∉ text) (textNoSpace : ' ' ∉ text) :
    eventText (head ++ text) = head ++ text := by
  have kept : (head ++ text).takeWhile (· != ';') = head ++ text := by
    rw [List.takeWhile_eq_self_iff]
    intro c hc
    have : ';' ∉ head ++ text := by simp [headNoComment, textNoComment]
    exact bne_iff_ne.mpr (ne_of_mem_of_not_mem hc this)
  have textFirst : text.head? ≠ some ' ' := fun h => textNoSpace (List.mem_of_mem_head? h)
  have textLast : text.getLast? ≠ some ' ' := fun h => textNoSpace (List.mem_of_getLast? h)
  rw [eventText, kept]
  apply trimSpaces_eq_self
  · simp [List.head?_append, Option.or_eq_some_iff, first, textFirst]
  · simp [List.getLast?_append, Option.or_eq_some_iff, last, textLast]

/-! Numbers (R76): the value of a text of digits -/

section Digits

variable {α : Type} {digit : Char → Option Nat} {char : α → Char} {value : α → Nat}

theorem digits_map (base : Nat) (h : ∀ a, digit (char a) = some (value a)) (acc : Nat) (as : List α) :
    digits base digit acc (as.map char) = some (as.foldl (fun acc a => acc * base + value a) acc) := by
  induction as generalizing acc with
  | nil => rfl
  | cons a as ih => simp only [List.map_cons, digits, h, ih, List.foldl_cons]

theorem notMem_map_of_not_digit (h : ∀ a, digit (char a) = some (value a)) (noDigit : digit c = none) (as : List α) :
    c ∉ as.map char := by
  intro hmem
  obtain ⟨a, -, rfl⟩ := List.mem_map.mp hmem
  simp [h] at noDigit

end Digits

/-- The character of a hexadecimal digit, in upper case where the flag says so (log 14). -/
def hexChar (d : Fin 16 × Bool) : Char := if d.2 then (Nat.digitChar d.1.val).toUpper else Nat.digitChar d.1.val

theorem decimalDigit_digitChar (d : Fin 10) : decimalDigit (Nat.digitChar d.val) = some d.val := by
  revert d
  decide

theorem hexDigit_hexChar (d : Fin 16 × Bool) : hexDigit (hexChar d) = some d.1.val := by
  revert d
  decide

theorem afterPrefix_eq_some {p cs rest : List Char} (h : afterPrefix p cs = some rest) : cs = p ++ rest := by
  induction p generalizing cs with
  | nil => simpa [afterPrefix] using h
  | cons c p ih =>
    cases cs with
    | nil => simp [afterPrefix] at h
    | cons d cs =>
      simp only [afterPrefix] at h
      split at h
      next same => rw [same, ih h, List.cons_append]
      next => cases h

theorem decimalNumber_of_ne_nil (h : text ≠ []) : decimalNumber text = digits 10 decimalDigit 0 text := by
  cases text with
  | nil => exact absurd rfl h
  | cons => rfl

theorem number_of_no_x (h : 'x' ∉ text) : number text = decimalNumber text := by
  have noPrefix : afterPrefix ['0', 'x'] text = none := by
    rw [Option.eq_none_iff_forall_ne_some]
    intro rest hrest
    exact h (by simp [afterPrefix_eq_some hrest])
  simp only [number, noPrefix]

theorem number_hex (nonempty : text ≠ []) :
    number ('0' :: 'x' :: text) = if text.length ≤ 4 then digits 16 hexDigit 0 text else none := by
  cases text with
  | nil => exact absurd rfl nonempty
  | cons => rfl

/-! What a text parses to -/

theorem parseEvent_scale (text : List Char) :
    parseEvent ("SCALE #".toList ++ text) = (number text).map .scale := rfl

theorem parseEvent_tickTimes (text : List Char) :
    parseEvent ("TICK*".toList ++ text) = (decimalNumber text).map .tickTimes := rfl

/-- Every mnemonic begins in upper case. -/
theorem parseEvent_lower_case (lower : 'a'.toNat ≤ c.toNat) (cs : List Char) : parseEvent (c :: cs) = none := by
  have upper : ∀ d ∈ ['I', 'T', 'E', 'O', 'R', 'F', 'P', 'S'], d.toNat < 'a'.toNat := by simp
  have notFirst : ∀ d ∈ ['I', 'T', 'E', 'O', 'R', 'F', 'P', 'S'], c ≠ d ∧ d ≠ c := by
    intro d hd
    have : c ≠ d := fun h => Nat.not_lt.mpr lower (h ▸ upper d hd)
    exact ⟨this, this.symm⟩
  simp only [List.forall_mem_cons] at notFirst
  simp [parseEvent, afterPrefix, notFirst]

/-! Lines of text (R76, R77) -/

theorem eventText_append_decimal (headNoComment : ';' ∉ head) (first : head.head? ≠ some ' ')
    (last : head.getLast? ≠ some ' ') (ds : List (Fin 10)) :
    eventText (head ++ ds.map fun d => Nat.digitChar d.val) = head ++ ds.map fun d => Nat.digitChar d.val :=
  eventText_append headNoComment first last (notMem_map_of_not_digit decimalDigit_digitChar (by decide) ds)
    (notMem_map_of_not_digit decimalDigit_digitChar (by decide) ds)

theorem decimalNumber_digits {ds : List (Fin 10)} (h : ds ≠ []) :
    decimalNumber (ds.map fun d => Nat.digitChar d.val) = some (ds.foldl (fun acc d => acc * 10 + d.val) 0) := by
  rw [decimalNumber_of_ne_nil (by simpa using h), digits_map 10 decimalDigit_digitChar]

theorem number_decimal_digits {ds : List (Fin 10)} (h : ds ≠ []) :
    number (ds.map fun d => Nat.digitChar d.val) = some (ds.foldl (fun acc d => acc * 10 + d.val) 0) := by
  rw [number_of_no_x (notMem_map_of_not_digit decimalDigit_digitChar (by decide) ds), decimalNumber_digits h]

theorem assembleLine_scale_decimal {ds : List (Fin 10)} (h : ds ≠ []) :
    assembleLine ("SCALE #".toList ++ ds.map fun d => Nat.digitChar d.val) =
      assembleEvent (.scale (ds.foldl (fun acc d => acc * 10 + d.val) 0)) := by
  apply assembleLine_of_parseEvent_some
  rw [eventText_append_decimal (by decide) (by decide) (by decide), parseEvent_scale, number_decimal_digits h,
    Option.map_some]

theorem assembleLine_tickTimes {ds : List (Fin 10)} (h : ds ≠ []) :
    assembleLine ("TICK*".toList ++ ds.map fun d => Nat.digitChar d.val) =
      assembleEvent (.tickTimes (ds.foldl (fun acc d => acc * 10 + d.val) 0)) := by
  apply assembleLine_of_parseEvent_some
  rw [eventText_append_decimal (by decide) (by decide) (by decide), parseEvent_tickTimes, decimalNumber_digits h,
    Option.map_some]

theorem parseEvent_eventText_hex (ds : List (Fin 16 × Bool)) :
    parseEvent (eventText ("SCALE #0x".toList ++ ds.map hexChar)) =
      (number ('0' :: 'x' :: ds.map hexChar)).map .scale := by
  rw [eventText_append (by decide) (by decide) (by decide) (notMem_map_of_not_digit hexDigit_hexChar (by decide) ds)
    (notMem_map_of_not_digit hexDigit_hexChar (by decide) ds)]
  exact parseEvent_scale ('0' :: 'x' :: ds.map hexChar)

theorem number_hex_digits {ds : List (Fin 16 × Bool)} (nonempty : 1 ≤ ds.length) (short : ds.length ≤ 4) :
    number ('0' :: 'x' :: ds.map hexChar) = some (ds.foldl (fun acc d => acc * 16 + d.1.val) 0) := by
  have : ds.map hexChar ≠ [] := by simpa using List.ne_nil_of_length_pos nonempty
  rw [number_hex this, if_pos (by simpa using short), digits_map 16 hexDigit_hexChar]

theorem number_hex_bad_length {ds : List (Fin 16 × Bool)} (h : ds.length = 0 ∨ 4 < ds.length) :
    number ('0' :: 'x' :: ds.map hexChar) = none := by
  obtain empty | long := h
  · rw [List.eq_nil_of_length_eq_zero empty]
    rfl
  · have : ds.map hexChar ≠ [] := by simpa using List.ne_nil_of_length_pos (by omega)
    rw [number_hex this, if_neg (by simpa using long)]

theorem assembleLine_scale_hex {ds : List (Fin 16 × Bool)} (nonempty : 1 ≤ ds.length) (short : ds.length ≤ 4) :
    assembleLine ("SCALE #0x".toList ++ ds.map hexChar) =
      assembleEvent (.scale (ds.foldl (fun acc d => acc * 16 + d.1.val) 0)) := by
  apply assembleLine_of_parseEvent_some
  rw [parseEvent_eventText_hex, number_hex_digits nonempty short, Option.map_some]

theorem assembleLine_scale_hex_bad_length {ds : List (Fin 16 × Bool)} (h : ds.length = 0 ∨ 4 < ds.length) :
    assembleLine ("SCALE #0x".toList ++ ds.map hexChar) = .error .syntaxError := by
  apply assembleLine_of_parseEvent_none
  · obtain ⟨rest, hrest⟩ := eventText_cons (c := 'S') (by decide) (by decide) ("CALE #0x".toList ++ ds.map hexChar)
    exact ne_of_eq_of_ne hrest (List.cons_ne_nil _ _)
  · rw [parseEvent_eventText_hex, number_hex_bad_length h, Option.map_none]

theorem assembleLine_lower_case (lower : 'a'.toNat ≤ c.toNat) (rest : List Char) :
    assembleLine (c :: rest) = .error .syntaxError := by
  have noComment : c ≠ ';' := by
    rintro rfl
    exact absurd lower (by decide)
  have first : c ≠ ' ' := by
    rintro rfl
    exact absurd lower (by decide)
  obtain ⟨read, hread⟩ := eventText_cons noComment first rest
  apply assembleLine_of_parseEvent_none <;> rw [hread]
  · exact List.cons_ne_nil _ _
  · exact parseEvent_lower_case lower read

/-- Settles O6: an event in range is the words of its expansion; a line is what `parseEvent` makes of its text before
the comment, where digits read from the left are the number they stand for. -/
theorem assemblerEventsExpandToTheirWords : Obligations.AssemblerEventsExpandToTheirWords := by
  refine ⟨rfl, rfl, rfl, rfl, rfl, fun _ => assembleEvent_pin, fun _ => assembleEvent_scale,
    fun _ => assembleEvent_tickTimes, rfl, rfl, ?scaleOutOfRange, ?pinOutOfRange, rfl, ?comment, by decide, by decide,
    by decide, by decide, by decide, by decide, by decide, by decide, ?decimal, ?hex, ?lowerCase⟩
  case scaleOutOfRange => exact fun n h => assembleEvent_ne_words ((scale_wellFormed_eq_false_iff n).mpr h)
  case pinOutOfRange => exact fun n h => assembleEvent_ne_words ((pin_wellFormed_eq_false_iff n).mpr h)
  case comment => exact fun _ comment h => assembleLine_congr (eventText_append_comment h comment)
  case decimal => exact fun _ h => ⟨assembleLine_scale_decimal h, assembleLine_tickTimes h⟩
  case hex =>
    refine fun ds => ⟨assembleLine_scale_hex, fun h ws => ?_⟩
    exact ne_of_eq_of_ne (assembleLine_scale_hex_bad_length h) (by simp)
  case lowerCase =>
    exact fun c rest lower _ ws => ne_of_eq_of_ne (assembleLine_lower_case lower rest) (by simp)

end Sys2Proof.Machine
